-- ==== Sys2Proof/Word.lean ====
section
/-! DEFINITION. The widths of the machine's values (spec/00_scope.md R8, R11): every register value is an
unsigned integer of its register's width, kept as a bit vector so that arithmetic wraps as R11 says. -/

namespace Sys2Proof

/-- An 8-bit value: a general register, SP, a timer, a memory byte, an immediate `nn` (R8, R21, R35). -/
abbrev Byte := BitVec 8

/-- A 16-bit value: PC, I, a stack entry, an instruction word (R8, R26, R27, R31, R90). -/
abbrev Word := BitVec 16

/-- A general register's index (R22: "A model types register indices as `Fin 16`"). -/
abbrev Reg := Fin 16

/-- One of the 16 logical keys, codes 0..15 (R8 `NUM_KEYS`, R345). -/
abbrev Key := Fin 16

end Sys2Proof
end

