-- ==== Sys2Proof/Config.lean ====
section
/-! DEFINITION. The implementation parameters of spec/00_scope.md R8. The dimensions are numbers; the parameters the
spec leaves OPEN, and the values it leaves free, are opaque constants without a body. -/

namespace Sys2Proof.Config

/-- `MEM_SIZE`: addresses run from 0x000 to 0xFFF (R8, R60). -/
def memSize : Nat := 4096

/-- `PC_RESET` and `PROGRAM_BASE` (R8, R40, R65). -/
def programBase : Nat := 0x200

/-- `MAX_PROGRAM` = 4096 − 512 (R8, R371). -/
def maxProgram : Nat := 3584

/-- `FONT_GLYPHS` × `GLYPH_BYTES` = 16 × 5 (R8). -/
def fontSize : Nat := 80

/-- `STACK_DEPTH` (R8, R31). -/
def stackDepth : Nat := 16

/-- `NUM_KEYS` (R8, R273). -/
def numKeys : Nat := 16

/-- `TIMER_HZ` (R8, R328). -/
def timerHz : Nat := 60

/-- `SPRITE_EDGE_POLICY` (R8, R343): what becomes of a sprite pixel past the right or bottom edge. -/
inductive EdgePolicy where
  /-- The pixel is dropped: the default, and the reference behaviour. -/
  | clip
  /-- The pixel is placed at (px mod 64, py mod 32). -/
  | wrap
  deriving DecidableEq, Repr

/-- `CPU_HZ` is a positive integer the spec leaves OPEN (R8, R324, 92_eei_decisions.md D18): this is CPU_HZ − 1. -/
opaque cpuHzLessOne : Nat

/-- `CPU_HZ`, at least 1 (R8, D18). -/
def cpuHz : Nat := cpuHzLessOne + 1

/-- `BUDGET_US_ROUNDING`, OPEN (R8, D19): is the per-cycle budget rounded to whole microseconds? -/
opaque budgetUsRounding : Bool

/-- The rounding to whole microseconds, which no rule gives (D19, 91_not_in_source.md N23). -/
opaque roundToMicroseconds : Rat → Rat

/-- `BUDGET` in seconds: 1 / CPU_HZ, rounded where `BUDGET_US_ROUNDING` says so (R324, D19). -/
def budget : Rat :=
  if budgetUsRounding then roundToMicroseconds (1 / cpuHz) else 1 / cpuHz

/-! ### What the environment draws where no draw of its stands ready in the state: FREE VALUES, by how many draws of the port
came before (R321; notes/assumptions/4.md). -/

/-- The `stop` input of the k-th cycle (R323, D20). -/
opaque freeStop : Nat → Bool

/-- The k-th `tick` input (R321, R328, D17). -/
opaque freeTick : Nat → Bool

/-- The k-th random byte (R355, D31). -/
opaque freeRand : Nat → Byte

/-- Whether the k-th Display or Keyboard call fails (R305, D21). -/
opaque freeIoError : Nat → Bool

/-- The clock's reading at the k-th poll (R322, R324). -/
opaque freeClock : Nat → Rat

/-- The held set the k-th poll leaves (R345, D16). -/
opaque freeHeld : Nat → Vector Bool 16

/-- The latch the k-th poll leaves (R345, D16). -/
opaque freeNewKey : Nat → Option Key

end Sys2Proof.Config
end

