-- ==== Sys2Proof/Machine/State.lean ====
section
/-! DEFINITION. The state of the machine as plain data: the record of spec/10_state.md R20, the hidden state of R39, and the
model's own fields (the environment's draws, the port calls of the latest cycle); and the state after reset. -/

namespace Sys2Proof.Machine

/-! ### Faults and the run state (R38, R300, R301) -/

/-- The kind of access a `MemoryBounds` record names (R301). -/
inductive Access where
  | fetch
  | read
  | write
  deriving DecidableEq, Repr

/-- The peripheral call a `PeripheralError` record names (R301). -/
inductive PortOp where
  | clear
  | draw
  | flush
  | poll
  deriving DecidableEq, Repr

/-- The kind of a fault with its extra fields (R301). -/
inductive FaultKind where
  | illegalInstruction (word : Word)
  | memoryBounds (addr : BitVec 17) (access : Access)
  | stackOverflow (sp : Byte)
  | stackUnderflow
  | keyRange (value : Byte)
  | peripheralError (op : PortOp)
  deriving DecidableEq, Repr

/-- The record a fault leaves in `status`: its kind and the address of the cycle's instruction (R301). Its code is
`FaultRecord.code` (Ops.lean). -/
structure FaultRecord where
  kind : FaultKind
  ia : Word
  deriving DecidableEq, Repr

/-- The run state (R38). -/
inductive Status where
  | running
  | stopped
  | faulted (r : FaultRecord)
  deriving DecidableEq, Repr

/-! ### Memory, framebuffer, ports -/

/-- The 4096 bytes of memory (R60): (address, byte) pairs in rising order of address, no pair holding `unlistedByte`. -/
abbrev Memory := List Host.Cell

/-- What an address reads as that no pair lists: 0x00, the value reset leaves in all of memory (R40, R370). -/
def unlistedByte : Byte := 0

/-- The canonical form: addresses strictly rising and inside memory, and no pair equal to what an unlisted address reads as. -/
abbrev Memory.wf (m : Memory) : Prop :=
  m.Pairwise (fun c d => c.1 < d.1) ∧ ∀ c ∈ m, c.1 < Config.memSize ∧ c.2 ≠ unlistedByte

/-- The Display's 64 × 32 bitmap `fb[row][col]`, one bit per pixel, 1 = lit (R340). A row is 64 bits, column 0, the leftmost, being
its most significant bit. -/
abbrev Framebuffer := Vector (BitVec 64) 32

/-- Every pixel unlit (R340, R341, R372). -/
def Framebuffer.blank : Framebuffer := Vector.replicate 32 0

/-- The commands the Beeper takes (R326, R350). -/
inductive BeepCommand where
  | play
  | pause
  deriving DecidableEq, Repr

/-- A call the core makes on an outgoing port (R320). -/
inductive PortCall where
  /-- `disp_clear` -/
  | clear
  /-- `disp_draw` -/
  | draw (x y : Byte) (bytes : List Byte)
  /-- `disp_flush` -/
  | flush
  /-- `beep` -/
  | beep (c : BeepCommand)
  /-- `kbd_poll`, with the time it may take, counted in BUDGETs (R322, R324). -/
  | poll (maxDuration : Rat)
  deriving DecidableEq, Repr

/-- What the environment draws for one Keyboard poll (R321, R345): the clock's reading when the poll's duration is computed,
counted in BUDGETs from the first cycle's time (R324), and the held set and latch the poll leaves. -/
structure PollDraw where
  now : Rat
  held : Vector Bool 16
  newKey : Option Key
  deriving DecidableEq, Repr

/-- MODEL'S OWN: the draws of one incoming port: those the environment has ready, the head being the next, and how many were
drawn before. The draws after the ready ones are free values (Machine/Ports.lean; notes/assumptions/3.md, 4.md). -/
structure Feed (α : Type) where
  pending : List α
  drawn : Nat
  deriving DecidableEq, Repr

/-- Nothing ready, nothing drawn. -/
def Feed.empty {α : Type} : Feed α := ⟨[], 0⟩

/-- MODEL'S OWN: the draws at the core's incoming ports (R320, R321). -/
structure Inputs where
  /-- `stop`, one per cycle. -/
  stop : Feed Bool
  /-- `tick`, one per cycle that gets past its dispatch. -/
  tick : Feed Bool
  /-- `rand`, one per `Cxnn`. -/
  rand : Feed Byte
  /-- `io_error`, one per Display or Keyboard call. -/
  ioError : Feed Bool
  /-- `kbd_held` and `kbd_new_key` as each poll sets them, with the clock's reading. -/
  poll : Feed PollDraw
  deriving DecidableEq, Repr

/-- The machine's state. -/
structure State where
  /-- V0..VF; VF is the flag register (R21, R23). -/
  v : Vector Byte 16
  /-- The index register I (R26). -/
  i : Word
  /-- The program counter (R27). -/
  pc : Word
  /-- The stack pointer: the number of occupied entries (R31). -/
  sp : Byte
  /-- The return stack: the spec's `Stack[k]`, k = 1..=16, is entry k − 1 (R31). -/
  stack : Vector Word 16
  /-- The delay timer (R36). -/
  dt : Byte
  /-- The sound timer (R37). -/
  st : Byte
  /-- Memory (R60). -/
  mem : Memory
  /-- The run state (R38). -/
  status : Status
  /-- Hidden: `next_instr_due`, counted in BUDGETs from the first cycle's time (R39, R324). -/
  instrDue : Nat
  /-- Hidden: `next_timer_due`, counted in 1/60 s from the first cycle's time (R39, R328). -/
  timerDue : Nat
  /-- Hidden: the Keyboard's held set (R39, R345). -/
  held : Vector Bool 16
  /-- Hidden: the Keyboard's new-key latch (R39, R345). -/
  newKey : Option Key
  /-- Hidden: the Display's framebuffer (R39, R340). -/
  fb : Framebuffer
  /-- Hidden: the bitmap the latest flush presented, none before the first (R327, R340, R382). -/
  screen : Option Framebuffer
  /-- Hidden: the latest Beeper command, none before the first tick (R39, R350). -/
  beeper : Option BeepCommand
  /-- The parameter `SPRITE_EDGE_POLICY` (R8, R343); no step changes it. -/
  edgePolicy : Config.EdgePolicy
  /-- MODEL'S OWN: the draws of the environment (R321). -/
  inputs : Inputs
  /-- MODEL'S OWN: the port calls made by the cycle that ran last, in order (R320, R322). -/
  calls : List PortCall
  deriving DecidableEq, Repr

/-- No draw ready at any port: every one is free (R321; notes/assumptions/3.md). -/
def Inputs.none : Inputs := ⟨.empty, .empty, .empty, .empty, .empty⟩

/-- The state after reset, before any load: R40 and R370 for the record of R20, R372 for the hidden state. -/
def State.reset : State where
  v := Vector.replicate 16 0
  i := 0
  pc := 0x200
  sp := 0
  stack := Vector.replicate 16 0
  dt := 0
  st := 0
  mem := []
  status := .running
  instrDue := 1
  timerDue := 1
  held := Vector.replicate 16 false
  newKey := none
  fb := Framebuffer.blank
  screen := none
  beeper := none
  edgePolicy := .clip
  inputs := Inputs.none
  calls := []

/-! ### How a step can stop -/

/-- Why the machine stops. -/
inductive Fault where
  /-- Raised by `cycle` in a state whose status is `Faulted(r)`: no cycle runs in it (R38, R300). The faulting cycle itself
  is a next state, the one R300 describes. Safe: this is the spec's own end of a run. -/
  | faulted (r : FaultRecord)
  /-- Raised by `State.push` and `State.pop` when SP > 16, which no run from reset reaches (R31; Obligations
  StepKeepsInvariant): there is no such stack entry. Safe. -/
  | stackPointerOutOfRange
  deriving DecidableEq, Repr

/-- Why a step is refused. -/
inductive Refusal where
  /-- Raised by `exec` for an instruction that has no meaning yet; no arm does. Safe. -/
  | notModelled (mnemonic : String)
  /-- Raised by `cycle` in a state whose status is `Stopped`: no cycle runs in it (R38), and `Stopped` is not a fault (R323).
  Safe. -/
  | stopped
  deriving DecidableEq, Repr

/-- What an instruction or a step answers. -/
abbrev Out := Host.Outcome State Fault Refusal

end Sys2Proof.Machine
end

