-- ==== Sys2Proof/Machine/Ops.lean ====
section
/-! DEFINITION. The named operations the meanings share: registers, PC, the stack, raising a fault, and the bounds check.
The core has no return from a fault (spec/60_exceptions.md R309), so none stands beside `raise`. -/

namespace Sys2Proof.Machine

/-! ### Registers (R21 to R23, R29) -/

/-- `V[x]`. -/
def State.reg (s : State) (x : Reg) : Byte := s.v[x.val]

/-- `V[x] <- b`. -/
def State.setReg (s : State) (x : Reg) (b : Byte) : State := { s with v := s.v.set x.val b }

/-- `FLAG_REG`: VF (R8, R23). -/
def flagReg : Reg := 15

/-- `set_flag(c)`: VF as 0 or 1 (R29). -/
def State.setFlag (s : State) (c : Bool) : State := s.setReg flagReg (if c then 1 else 0)

/-- `V[i]` for 0 ≤ i ≤ x, in order (R205). -/
def State.regsUpTo (s : State) (x : Reg) : List Byte := s.v.toList.take (x.val + 1)

/-! ### The program counter (R27, R91, R125) -/

/-- `pc <- target`. -/
def State.setPc (s : State) (p : Word) : State := { s with pc := p }

/-- `PC <- PC + 2`: the advance of R91, and `Skip()` of R125. -/
def State.advance (s : State) : State := s.setPc (s.pc + 2)

/-- `if c: Skip()` (R125). -/
def State.skipIf (s : State) (c : Bool) : State := if c then s.advance else s

/-- The address of the instruction under execution: PC is IA + 2 while it executes (R16, R91). -/
def State.ia (s : State) : Word := s.pc - 2

/-! ### The other special registers -/

/-- `I <- w` (R26). -/
def State.setI (s : State) (w : Word) : State := { s with i := w }

/-- `DT <- b` (R36). -/
def State.setDt (s : State) (b : Byte) : State := { s with dt := b }

/-- `ST <- b` (R37). -/
def State.setSt (s : State) (b : Byte) : State := { s with st := b }

/-- Memory replaced (R60). -/
def State.setMem (s : State) (m : Memory) : State := { s with mem := m }

/-- The framebuffer replaced (R340). -/
def State.setFb (s : State) (fb : Framebuffer) : State := { s with fb := fb }

/-! ### Raising a fault (R300, R301) -/

/-- The code of a fault's kind (R301). -/
def FaultKind.code : FaultKind → Nat
  | .illegalInstruction _ => 1
  | .memoryBounds _ _ => 2
  | .stackOverflow _ => 3
  | .stackUnderflow => 4
  | .keyRange _ => 5
  | .peripheralError _ => 6

/-- The code a fault record holds (R301). -/
def FaultRecord.code (r : FaultRecord) : Nat := r.kind.code

/-- `status <- Faulted(record)`, and nothing else (R300): every write made before stays. -/
def State.raise (s : State) (ia : Word) (k : FaultKind) : State := { s with status := .faulted ⟨k, ia⟩ }

/-- How an operation of an instruction ends when it does not go on: it raises a fault of R301, or the state is one that
no run reaches. -/
inductive Trap where
  | raise (k : FaultKind)
  | stop (f : Fault)
  deriving DecidableEq, Repr

/-- The instruction's end: the state it makes, or the fault it raises in state `s`, whose PC is IA + 2 (R91, R300). -/
def State.complete (s : State) : Except Trap State → Out
  | .ok t => .next t
  | .error (.raise k) => .next (s.raise s.ia k)
  | .error (.stop f) => .fault f

/-! ### Bounds (R62, R64) -/

/-- The check of R64: the last address of a range is inside memory. -/
def checkLast (last : Nat) (access : Access) : Except Trap Unit :=
  if Config.memSize ≤ last then .error (.raise (.memoryBounds (BitVec.ofNat 17 last) access)) else .ok ()

/-! ### The stack (R31 to R34) -/

/-- `Push(w)` (R33). -/
def State.push (s : State) (w : Word) : Except Trap State :=
  if s.sp.toNat = Config.stackDepth then .error (.raise (.stackOverflow s.sp))
  else if h : s.sp.toNat < 16 then .ok { s with sp := s.sp + 1, stack := s.stack.set s.sp.toNat w }
  else .error (.stop .stackPointerOutOfRange)

/-- `Pop()` (R34). The entry is not cleared. -/
def State.pop (s : State) : Except Trap (Word × State) :=
  if s.sp.toNat = 0 then .error (.raise .stackUnderflow)
  else if h : s.sp.toNat - 1 < 16 then .ok (s.stack[s.sp.toNat - 1], { s with sp := s.sp - 1 })
  else .error (.stop .stackPointerOutOfRange)

end Sys2Proof.Machine
end

