-- ==== Sys2Proof/Machine/Ports.lean ====
section
/-! DEFINITION. The ports (spec/60_exceptions.md R320, R321): taking the next draw of an incoming port, and calling an outgoing
one. A draw is the one the environment has ready in the state, or else a free value of Config: the core constrains none. -/

namespace Sys2Proof.Machine

/-! ### The draws of a port (R321) -/

/-- The k-th draw to come, counted from 0: the k-th ready one, or a free value beyond them. -/
def Feed.nth {α : Type} (f : Feed α) (free : Nat → α) (k : Nat) : α := f.pending.getD k (free (f.drawn + k))

/-- The port after k draws. -/
def Feed.skip {α : Type} (f : Feed α) (k : Nat) : Feed α := ⟨f.pending.drop k, f.drawn + k⟩

/-- The port after one draw. -/
def Feed.rest {α : Type} (f : Feed α) : Feed α := f.skip 1

/-! ### Incoming ports -/

/-- The `stop` input of this cycle (R323). -/
def State.stopInput (s : State) : Bool := s.inputs.stop.nth Config.freeStop 0

/-- The `stop` input, taken. -/
def State.takeStop (s : State) : Bool × State :=
  (s.stopInput, { s with inputs := { s.inputs with stop := s.inputs.stop.rest } })

/-- The `tick` input of this cycle (R321, R328). -/
def State.tickInput (s : State) : Bool := s.inputs.tick.nth Config.freeTick 0

/-- The `tick` input, taken. -/
def State.takeTick (s : State) : Bool × State :=
  (s.tickInput, { s with inputs := { s.inputs with tick := s.inputs.tick.rest } })

/-- The byte the next `Rand()` gives (R355). -/
def State.nextRand (s : State) : Byte := s.inputs.rand.nth Config.freeRand 0

/-- `Rand()`: one fresh byte (R355). -/
def State.takeRand (s : State) : Byte × State :=
  (s.nextRand, { s with inputs := { s.inputs with rand := s.inputs.rand.rest } })

/-- Whether the k-th Display or Keyboard call to come, counted from 0, reports a failure (R305, R321). -/
def State.ioDraw (s : State) (k : Nat) : Bool := s.inputs.ioError.nth Config.freeIoError k

/-- The k-th poll's free draw (R345). -/
def freePoll (k : Nat) : PollDraw := ⟨Config.freeClock k, Config.freeHeld k, Config.freeNewKey k⟩

/-- What this cycle's poll draws (R321, R345). -/
def State.nextPoll (s : State) : PollDraw := s.inputs.poll.nth freePoll 0

/-- The poll's draw, taken (R345). -/
def State.takePoll (s : State) : PollDraw × State :=
  (s.nextPoll, { s with inputs := { s.inputs with poll := s.inputs.poll.rest } })

/-- `take_new_key()`: the latch, which is then none (R346). -/
def State.takeNewKey (s : State) : Option Key × State := (s.newKey, { s with newKey := none })

/-! ### Outgoing ports -/

/-- A call on a port that cannot fail (R305, R350). -/
def State.call (s : State) (c : PortCall) : State := { s with calls := s.calls ++ [c] }

/-- A call on the Display or Keyboard, and whether it reports a failure (R305). -/
def State.callIo (s : State) (c : PortCall) : Bool × State :=
  (s.ioDraw 0, { s.call c with inputs := { s.inputs with ioError := s.inputs.ioError.rest } })

end Sys2Proof.Machine
end

