-- ==== Sys2Proof/Machine/Operands.lean ====
section
/-! DEFINITION. How operands are assembled (spec/30_encoding.md R93), the one addressing mode (spec/42_index_memory.md R200) and
the key operand (spec/44_timers_keys.md R273). No immediate is sign-extended, scaled or shifted. -/

namespace Sys2Proof.Machine

/-- `zext_16(nnn)`: an address operand as PC or I takes it (R93). -/
def addrOperand (nnn : BitVec 12) : Word := nnn.setWidth 16

/-- `zext_16(V[x])`: a register as a part of a 16-bit sum (R124). -/
def wordOperand (b : Byte) : Word := b.setWidth 16

/-- The count operand of `Dxyn`, 0..=15 (R93). -/
def countOperand (n : BitVec 4) : Nat := n.toNat

/-- The data address I + k, not reduced (R62, R200). -/
def State.dataAddr (s : State) (k : Nat) : Nat := s.i.toNat + k

/-- `zext_8(key)`: a key code as a register takes it (R277). -/
def keyOperand (k : Key) : Byte := BitVec.ofNat 8 k.val

/-- `KeyIndex(v)` (R273). -/
def keyIndex (v : Byte) : Except Trap Key :=
  if h : v.toNat < 16 then .ok ⟨v.toNat, h⟩ else .error (.raise (.keyRange v))

/-- The address of the glyph of V[x]: V[x] × 5, the whole byte multiplied (R203). -/
def glyphAddr (b : Byte) : Word := BitVec.ofNat 16 (b.toNat * 5)

/-- The hundreds, tens and ones digits of a byte (R204). -/
def decimalDigits (b : Byte) : List Byte :=
  [BitVec.ofNat 8 (b.toNat / 100), BitVec.ofNat 8 (b.toNat / 10 % 10), BitVec.ofNat 8 (b.toNat % 10)]

end Sys2Proof.Machine
end

