-- ==== Sys2Proof/Machine/Flags.lean ====
section
/-! DEFINITION. Every flag computation (spec/10_state.md R29, spec/41_alu.md R165), and the results that go with them, on the exact
unsigned values (R11). The collision flag of `Dxyn` is computed by the Display (Machine/Display.lean). -/

namespace Sys2Proof.Machine

/-- `(a + b) mod 256` (R165). -/
def addResult (a b : Byte) : Byte := BitVec.ofNat 8 (a.toNat + b.toNat)

/-- Carry: a + b > 255 (R29 row 8xy4, R165). -/
def carryFlag (a b : Byte) : Bool := decide (255 < a.toNat + b.toNat)

/-- `(a − b) mod 256` (R165). -/
def subResult (a b : Byte) : Byte := a - b

/-- No borrow: a ≥ b (R29 rows 8xy5 and 8xy7, R165). -/
def noBorrowFlag (a b : Byte) : Bool := decide (b.toNat ≤ a.toNat)

/-- `a >> 1`, zero filled (R176). -/
def shrResult (a : Byte) : Byte := a >>> 1

/-- The bit a right shift by one shifts out: old bit 0 (R29 row 8xy6; 90_conflicts.md C1). -/
def shrFlag (a : Byte) : Bool := a.getLsbD 0

/-- `(a << 1) mod 256` (R178). -/
def shlResult (a : Byte) : Byte := a <<< 1

/-- The bit a left shift by one shifts out: old bit 7 (R29 row 8xyE; 90_conflicts.md C1). -/
def shlFlag (a : Byte) : Bool := a.getLsbD 7

/-- `(I + V[x]) mod 65536` (R202). -/
def indexResult (i : Word) (b : Byte) : Word := BitVec.ofNat 16 (i.toNat + b.toNat)

/-- The carry out of bit 15 of I: I + V[x] > 0xFFFF (R29 row Fx1E, R202). -/
def indexFlag (i : Word) (b : Byte) : Bool := decide (0xFFFF < i.toNat + b.toNat)

end Sys2Proof.Machine
end

