-- ==== Sys2Proof/Machine/Alu.lean ====
section
/-! DEFINITION. The meanings of spec/41_alu.md. Sources are read first, the result is written to V[x], then the flag to VF, so that
with x = 15 the flag is what VF holds (R14, R160). None raises a fault. -/

namespace Sys2Proof.Machine

/-- `6xnn` LD Vx, nn (R161). -/
def execLdImm (x : Reg) (nn : Byte) (s : State) : Out := .next (s.setReg x nn)

/-- `7xnn` ADD Vx, nn (R162): VF is not written as a flag. -/
def execAddImm (x : Reg) (nn : Byte) (s : State) : Out := .next (s.setReg x (addResult (s.reg x) nn))

/-- `8xy0` LD Vx, Vy (R170). -/
def execLdReg (x y : Reg) (s : State) : Out := .next (s.setReg x (s.reg y))

/-- `8xy1` OR Vx, Vy (R171). -/
def execOrReg (x y : Reg) (s : State) : Out := .next (s.setReg x (s.reg x ||| s.reg y))

/-- `8xy2` AND Vx, Vy (R172). -/
def execAndReg (x y : Reg) (s : State) : Out := .next (s.setReg x (s.reg x &&& s.reg y))

/-- `8xy3` XOR Vx, Vy (R173). -/
def execXorReg (x y : Reg) (s : State) : Out := .next (s.setReg x (s.reg x ^^^ s.reg y))

/-- The result to V[x], then the flag to VF (R160). -/
def State.setResult (s : State) (x : Reg) (result : Byte) (flag : Bool) : State := (s.setReg x result).setFlag flag

/-- `8xy4` ADD Vx, Vy (R174). -/
def execAddReg (x y : Reg) (s : State) : Out :=
  .next (s.setResult x (addResult (s.reg x) (s.reg y)) (carryFlag (s.reg x) (s.reg y)))

/-- `8xy5` SUB Vx, Vy (R175). -/
def execSubReg (x y : Reg) (s : State) : Out :=
  .next (s.setResult x (subResult (s.reg x) (s.reg y)) (noBorrowFlag (s.reg x) (s.reg y)))

/-- `8xy6` SHR Vx (R176): the y field is not read. -/
def execShr (x _y : Reg) (s : State) : Out := .next (s.setResult x (shrResult (s.reg x)) (shrFlag (s.reg x)))

/-- `8xy7` SUBN Vx, Vy (R177). -/
def execSubn (x y : Reg) (s : State) : Out :=
  .next (s.setResult x (subResult (s.reg y) (s.reg x)) (noBorrowFlag (s.reg y) (s.reg x)))

/-- `8xyE` SHL Vx (R178): the y field is not read. -/
def execShl (x _y : Reg) (s : State) : Out := .next (s.setResult x (shlResult (s.reg x)) (shlFlag (s.reg x)))

/-- `Cxnn` RND Vx, nn (R180): one fresh draw, masked. -/
def execRnd (x : Reg) (nn : Byte) (s : State) : Out :=
  match s.takeRand with
  | (r, t) => .next (t.setReg x (nn &&& r))

end Sys2Proof.Machine
end

