-- ==== Sys2Proof/Machine/ControlFlow.lean ====
section
/-! DEFINITION. The meanings of spec/40_control_flow.md. Each runs after the fetch-and-advance of R91, so the state's PC is IA + 2. -/

namespace Sys2Proof.Machine

/-- `00EE` RET (R121). -/
def execRet (s : State) : Out :=
  s.complete <| match s.pop with
    | .ok (target, t) => .ok (t.setPc target)
    | .error e => .error e

/-- `1nnn` JP nnn (R122). -/
def execJp (nnn : BitVec 12) (s : State) : Out := .next (s.setPc (addrOperand nnn))

/-- `2nnn` CALL nnn (R123): the pushed PC is IA + 2. -/
def execCall (nnn : BitVec 12) (s : State) : Out :=
  s.complete <| match s.push s.pc with
    | .ok t => .ok (t.setPc (addrOperand nnn))
    | .error e => .error e

/-- `Bnnn` JP V0, nnn (R124). -/
def execJpV0 (nnn : BitVec 12) (s : State) : Out := .next (s.setPc (wordOperand (s.reg 0) + addrOperand nnn))

/-- `3xnn` SE Vx, nn (R126). -/
def execSeImm (x : Reg) (nn : Byte) (s : State) : Out := .next (s.skipIf (decide (s.reg x = nn)))

/-- `4xnn` SNE Vx, nn (R127). -/
def execSneImm (x : Reg) (nn : Byte) (s : State) : Out := .next (s.skipIf (decide (s.reg x ≠ nn)))

/-- `5xy0` SE Vx, Vy (R128). -/
def execSeReg (x y : Reg) (s : State) : Out := .next (s.skipIf (decide (s.reg x = s.reg y)))

/-- `9xy0` SNE Vx, Vy (R129). -/
def execSneReg (x y : Reg) (s : State) : Out := .next (s.skipIf (decide (s.reg x ≠ s.reg y)))

end Sys2Proof.Machine
end

