-- ==== Sys2Proof/Machine/Display.lean ====
section
/-! DEFINITION. The Display's contract (spec/60_exceptions.md R340 to R344): the framebuffer, its clear, and the XOR draw with
collision, in the order of R342's pseudocode. -/

namespace Sys2Proof.Machine

/-- `fb[py][px]` (R340): column px of a row is its bit 63 − px. -/
def Framebuffer.lit (fb : Framebuffer) (px : Fin 64) (py : Fin 32) : Bool := fb[py.val].getLsbD (63 - px.val)

/-- `fb[py][px] <- fb[py][px] XOR 1` (R342). -/
def Framebuffer.flip (fb : Framebuffer) (px : Fin 64) (py : Fin 32) : Framebuffer :=
  fb.set py.val (fb[py.val] ^^^ BitVec.twoPow 64 (63 - px.val))

/-- `Place(px, py)`: where a pixel goes, or none when it is dropped (R343). -/
def place : Config.EdgePolicy → Nat → Nat → Option (Fin 64 × Fin 32)
  | .clip, px, py => if h : px < 64 ∧ py < 32 then some (⟨px, h.1⟩, ⟨py, h.2⟩) else none
  | .wrap, px, py => some (⟨px % 64, Nat.mod_lt _ (by decide)⟩, ⟨py % 32, Nat.mod_lt _ (by decide)⟩)

/-- One 1 bit of a sprite, drawn: the framebuffer and the collision so far (R342). -/
def plot (p : Config.EdgePolicy) (px py : Nat) (acc : Framebuffer × Bool) : Framebuffer × Bool :=
  match place p px py with
  | none => acc
  | some (qx, qy) => (acc.1.flip qx qy, acc.2 || acc.1.lit qx qy)

/-- Bits b, b+1, …, of a sprite byte, `k` of them, bit 7 of the byte being the leftmost (R342). -/
def drawBits (p : Config.EdgePolicy) (cx py : Nat) (byte : Byte) (b : Nat) : Nat → Framebuffer × Bool → Framebuffer × Bool
  | 0, acc => acc
  | k + 1, acc =>
    drawBits p cx py byte (b + 1) k (if byte.getLsbD (7 - b) then plot p (cx + b) py acc else acc)

/-- The rows of a sprite from row coordinate `py` down (R342). -/
def drawRows (p : Config.EdgePolicy) (cx : Nat) (py : Nat) : List Byte → Framebuffer × Bool → Framebuffer × Bool
  | [], acc => acc
  | byte :: rest, acc => drawRows p cx (py + 1) rest (drawBits p cx py byte 0 8 acc)

/-- `draw(cx, cy, bytes)`: the new framebuffer and the collision (R342). -/
def Framebuffer.draw (p : Config.EdgePolicy) (cx cy : Byte) (bytes : List Byte) (fb : Framebuffer) : Framebuffer × Bool :=
  drawRows p cx.toNat cy.toNat bytes (fb, false)

end Sys2Proof.Machine
end

