-- ==== Sys2Proof/Machine/DisplayInstr.lean ====
section
/-! DEFINITION. The meanings of spec/43_display.md. Neither flushes the display (R239). A call that reports a failure raises
`PeripheralError` and has none of its effect (R305, R308; notes/assumptions/6.md). -/

namespace Sys2Proof.Machine

/-- `00E0` CLS (R240). -/
def execCls (s : State) : Out :=
  match s.callIo .clear with
  | (failed, t) => .next (if failed then t.raise t.ia (.peripheralError .clear) else t.setFb Framebuffer.blank)

/-- The bounds check of `Dxyn`: with n = 0 no access is made and none can fault (R64, R241). -/
def State.checkSprite (s : State) (n : Nat) : Except Trap Unit :=
  if n = 0 then .ok () else checkLast (s.dataAddr (n - 1)) .read

/-- The Display call of `Dxyn` and the flag it leaves in VF (R241, R342). -/
def State.drawSprite (s : State) (cx cy : Byte) (bytes : List Byte) : Out :=
  match s.callIo (.draw cx cy bytes), s.fb.draw s.edgePolicy cx cy bytes with
  | (failed, t), (fb, collision) =>
    .next (if failed then t.raise t.ia (.peripheralError .draw) else (t.setFb fb).setFlag collision)

/-- `Dxyn` DRW Vx, Vy, n (R241): bounds before the Display call (R307), coordinates read before VF is written. -/
def execDrw (x y : Reg) (n : BitVec 4) (s : State) : Out :=
  match s.checkSprite (countOperand n) with
  | .error e => s.complete (.error e)
  | .ok _ => s.drawSprite (s.reg x) (s.reg y) (s.mem.readRange (s.dataAddr 0) (countOperand n))

end Sys2Proof.Machine
end

