-- ==== Sys2Proof/Machine/IndexMemory.lean ====
section
/-! DEFINITION. The meanings of spec/42_index_memory.md. The last address of a transfer is checked before any access (R64), and no
transfer changes I (R200). -/

namespace Sys2Proof.Machine

/-- `Annn` LD I, nnn (R201). -/
def execLdI (nnn : BitVec 12) (s : State) : Out := .next (s.setI (addrOperand nnn))

/-- `Fx1E` ADD I, Vx (R202): the addend is read before VF is written. -/
def execAddI (x : Reg) (s : State) : Out :=
  .next ((s.setI (indexResult s.i (s.reg x))).setFlag (indexFlag s.i (s.reg x)))

/-- `Fx29` LD F, Vx (R203). -/
def execLdF (x : Reg) (s : State) : Out := .next (s.setI (glyphAddr (s.reg x)))

/-- Bytes stored at I, I+1, … after the check of the last address (R64); the stored block is not empty. -/
def State.storeBlock (s : State) (bytes : List Byte) : Except Trap State :=
  match checkLast (s.dataAddr (bytes.length - 1)) .write with
  | .ok _ => .ok (s.setMem (s.mem.writeRange (s.dataAddr 0) bytes))
  | .error e => .error e

/-- `V[i] <- MemRead(I + i)` for 0 ≤ i ≤ x (R206). -/
def State.loadRegs (s : State) (x : Reg) : State :=
  { s with v := Vector.ofFn fun r => if r ≤ x then s.mem.read (s.dataAddr r.val) else s.reg r }

/-- `Fx33` LD B, Vx (R204). -/
def execLdB (x : Reg) (s : State) : Out := s.complete (s.storeBlock (decimalDigits (s.reg x)))

/-- `Fx55` LD [I], Vx (R205). -/
def execStore (x : Reg) (s : State) : Out := s.complete (s.storeBlock (s.regsUpTo x))

/-- `Fx65` LD Vx, [I] (R206). -/
def execLoad (x : Reg) (s : State) : Out :=
  s.complete <| match checkLast (s.dataAddr x.val) .read with
    | .ok _ => .ok (s.loadRegs x)
    | .error e => .error e

end Sys2Proof.Machine
end

