-- ==== Sys2Proof/Machine/TimersKeys.lean ====
section
/-! DEFINITION. The meanings of spec/44_timers_keys.md. The key state they read is the previous cycle's poll's (R270, R383). -/

namespace Sys2Proof.Machine

/-- `Keyboard.held(k)` (R345). -/
def State.keyHeld (s : State) (k : Key) : Bool := s.held[k.val]

/-- `Ex9E` SKP Vx (R271). -/
def execSkp (x : Reg) (s : State) : Out :=
  s.complete <| match keyIndex (s.reg x) with
    | .ok k => .ok (s.skipIf (s.keyHeld k))
    | .error e => .error e

/-- `ExA1` SKNP Vx (R272). -/
def execSknp (x : Reg) (s : State) : Out :=
  s.complete <| match keyIndex (s.reg x) with
    | .ok k => .ok (s.skipIf (!s.keyHeld k))
    | .error e => .error e

/-- `Fx07` LD Vx, DT (R274). -/
def execLdVxDt (x : Reg) (s : State) : Out := .next (s.setReg x s.dt)

/-- `Fx15` LD DT, Vx (R275). -/
def execLdDtVx (x : Reg) (s : State) : Out := .next (s.setDt (s.reg x))

/-- `Fx18` LD ST, Vx (R276). -/
def execLdStVx (x : Reg) (s : State) : Out := .next (s.setSt (s.reg x))

/-- `Fx0A` LD Vx, K (R277): with an empty latch PC goes back to IA, so the instruction runs again next cycle. -/
def execLdVxK (x : Reg) (s : State) : Out :=
  match s.takeNewKey with
  | (some k, t) => .next (t.setReg x (keyOperand k))
  | (none, t) => .next (t.setPc (t.pc - 2))

end Sys2Proof.Machine
end

