-- ==== Sys2Proof/Syntax.lean ====
section
/-! DEFINITION. The 34 instructions of spec/30_encoding.md R95, one constructor per row of spec/opcode_table.json, with the
operands of the row's format (R94). The operand types carry the field widths of R92, so that no operand out of range
can be written (R22). -/

namespace Sys2Proof

/-- One instruction. `x` and `y` are register selectors, `nnn` a 12-bit address, `nn` an 8-bit immediate, `n` a 4-bit
count (R92). -/
inductive Instr where
  /-- `00E0` CLS: clear the display (R240). -/
  | cls
  /-- `00EE` RET: return from subroutine (R121). -/
  | ret
  /-- `1nnn` JP nnn: jump (R122). -/
  | jp (nnn : BitVec 12)
  /-- `2nnn` CALL nnn: call subroutine (R123). -/
  | call (nnn : BitVec 12)
  /-- `3xnn` SE Vx, nn: skip if equal to immediate (R126). -/
  | seImm (x : Reg) (nn : Byte)
  /-- `4xnn` SNE Vx, nn: skip if not equal to immediate (R127). -/
  | sneImm (x : Reg) (nn : Byte)
  /-- `5xy0` SE Vx, Vy: skip if registers equal (R128). -/
  | seReg (x y : Reg)
  /-- `6xnn` LD Vx, nn: load immediate (R161). -/
  | ldImm (x : Reg) (nn : Byte)
  /-- `7xnn` ADD Vx, nn: add immediate without carry (R162). -/
  | addImm (x : Reg) (nn : Byte)
  /-- `8xy0` LD Vx, Vy: copy register (R170). -/
  | ldReg (x y : Reg)
  /-- `8xy1` OR Vx, Vy (R171). -/
  | orReg (x y : Reg)
  /-- `8xy2` AND Vx, Vy (R172). -/
  | andReg (x y : Reg)
  /-- `8xy3` XOR Vx, Vy (R173). -/
  | xorReg (x y : Reg)
  /-- `8xy4` ADD Vx, Vy: add with carry out (R174). -/
  | addReg (x y : Reg)
  /-- `8xy5` SUB Vx, Vy: subtract, flag = no borrow (R175). -/
  | subReg (x y : Reg)
  /-- `8xy6` SHR Vx, Vy: shift right by one; `y` is encoded and ignored (R176). -/
  | shr (x y : Reg)
  /-- `8xy7` SUBN Vx, Vy: reverse subtract, flag = no borrow (R177). -/
  | subn (x y : Reg)
  /-- `8xyE` SHL Vx, Vy: shift left by one; `y` is encoded and ignored (R178). -/
  | shl (x y : Reg)
  /-- `9xy0` SNE Vx, Vy: skip if registers differ (R129). -/
  | sneReg (x y : Reg)
  /-- `Annn` LD I, nnn: load index register (R201). -/
  | ldI (nnn : BitVec 12)
  /-- `Bnnn` JP V0, nnn: jump with offset (R124). -/
  | jpV0 (nnn : BitVec 12)
  /-- `Cxnn` RND Vx, nn: random byte masked by an immediate (R180). -/
  | rnd (x : Reg) (nn : Byte)
  /-- `Dxyn` DRW Vx, Vy, n: draw an n-row sprite with collision (R241). -/
  | drw (x y : Reg) (n : BitVec 4)
  /-- `Ex9E` SKP Vx: skip if the key is held (R271). -/
  | skp (x : Reg)
  /-- `ExA1` SKNP Vx: skip if the key is not held (R272). -/
  | sknp (x : Reg)
  /-- `Fx07` LD Vx, DT: read the delay timer (R274). -/
  | ldVxDt (x : Reg)
  /-- `Fx0A` LD Vx, K: wait for a key press (R277). -/
  | ldVxK (x : Reg)
  /-- `Fx15` LD DT, Vx: set the delay timer (R275). -/
  | ldDtVx (x : Reg)
  /-- `Fx18` LD ST, Vx: set the sound timer (R276). -/
  | ldStVx (x : Reg)
  /-- `Fx1E` ADD I, Vx: add register to index, flag = 16-bit carry (R202). -/
  | addI (x : Reg)
  /-- `Fx29` LD F, Vx: point I at the glyph of a digit (R203). -/
  | ldF (x : Reg)
  /-- `Fx33` LD B, Vx: store three decimal digits (R204). -/
  | ldB (x : Reg)
  /-- `Fx55` LD [I], Vx: store registers V0..Vx (R205). -/
  | store (x : Reg)
  /-- `Fx65` LD Vx, [I]: load registers V0..Vx (R206). -/
  | load (x : Reg)
  deriving DecidableEq, Repr

end Sys2Proof
end

