-- ==== Sys2Proof/WellFormed.lean ====
section
/-! DEFINITION. The operand checks of spec/30_encoding.md R100 ("`nnn` must fit in 12 bits, `nn` in 8 bits and `n` in
4 bits. An assembler refuses a larger value") and of R22 (a register selector is one of 0..15), over operands as an
assembler reads them: plain numbers. An `Instr` already carries the widths in its types, so its own operands always
pass (Laws/Encoding.lean, `instr_wellFormed`); what the checks refuse is an operand from which no `Instr` can be made. -/

namespace Sys2Proof

/-- An operand of an assembler line, before its width is checked. -/
inductive Operand where
  /-- A register selector `x` or `y`. -/
  | reg (v : Nat)
  /-- An address `nnn`. -/
  | addr (v : Nat)
  /-- An immediate `nn`. -/
  | imm (v : Nat)
  /-- A count `n`. -/
  | count (v : Nat)
  deriving DecidableEq, Repr

/-- The bound of each kind of operand (R22, R92, R100). -/
def Operand.wellFormed : Operand → Bool
  | .reg v => decide (v < 16)
  | .addr v => decide (v < 4096)
  | .imm v => decide (v < 256)
  | .count v => decide (v < 16)

/-- The operands of an instruction, in the order of its format (R94). -/
def Instr.operands : Instr → List Operand
  | .cls | .ret => []
  | .jp nnn | .call nnn | .ldI nnn | .jpV0 nnn => [.addr nnn.toNat]
  | .seImm x nn | .sneImm x nn | .ldImm x nn | .addImm x nn | .rnd x nn => [.reg x, .imm nn.toNat]
  | .seReg x y | .ldReg x y | .orReg x y | .andReg x y | .xorReg x y | .addReg x y | .subReg x y | .shr x y
  | .subn x y | .shl x y | .sneReg x y => [.reg x, .reg y]
  | .drw x y n => [.reg x, .reg y, .count n.toNat]
  | .skp x | .sknp x | .ldVxDt x | .ldVxK x | .ldDtVx x | .ldStVx x | .addI x | .ldF x | .ldB x | .store x
  | .load x => [.reg x]

/-- Every operand is in the range its field can hold (R100). -/
def Instr.wellFormed (i : Instr) : Bool := i.operands.all Operand.wellFormed

end Sys2Proof
end

