-- ==== Sys2Proof/Decode.lean ====
section
/-! DEFINITION. The decoder of spec/30_encoding.md R90 to R99, total on any bytes and rejecting by name; then the encoder,
written from the formats of R94 and the rows of R95; then R95's table itself, as data. -/

namespace Sys2Proof

/-- Why the decoder gives no instruction. -/
inductive DecodeError where
  /-- The word matches no row of R95 (R98). -/
  | illegal (word : Word)
  /-- Fewer than the 2 bytes every instruction takes (R90). -/
  | truncated
  deriving DecidableEq, Repr

/-! ### The fields of R92 -/

/-- `op` = w[15:12]. -/
def opField (w : Word) : BitVec 4 := w.extractLsb' 12 4
/-- `x` = w[11:8], as a register selector. -/
def xField (w : Word) : Reg := (w.extractLsb' 8 4).toFin
/-- `y` = w[7:4], as a register selector. -/
def yField (w : Word) : Reg := (w.extractLsb' 4 4).toFin
/-- `n` = w[3:0]. -/
def nField (w : Word) : BitVec 4 := w.extractLsb' 0 4
/-- `nn` = w[7:0]. -/
def nnField (w : Word) : Byte := w.extractLsb' 0 8
/-- `nnn` = w[11:0]. -/
def nnnField (w : Word) : BitVec 12 := w.extractLsb' 0 12

/-! ### Decoding by major opcode (R97) -/

/-- Major opcode 0: the two words of format FIX, and nothing else (R98). -/
def decodeFixed (w : Word) : Except DecodeError Instr :=
  if w = 0x00E0 then .ok .cls
  else if w = 0x00EE then .ok .ret
  else .error (.illegal w)

/-- Major opcode 8: the sub-opcode is w[3:0]. -/
def decodeArith (w : Word) : Except DecodeError Instr :=
  match nField w with
  | 0x0 => .ok (.ldReg (xField w) (yField w))
  | 0x1 => .ok (.orReg (xField w) (yField w))
  | 0x2 => .ok (.andReg (xField w) (yField w))
  | 0x3 => .ok (.xorReg (xField w) (yField w))
  | 0x4 => .ok (.addReg (xField w) (yField w))
  | 0x5 => .ok (.subReg (xField w) (yField w))
  | 0x6 => .ok (.shr (xField w) (yField w))
  | 0x7 => .ok (.subn (xField w) (yField w))
  | 0xE => .ok (.shl (xField w) (yField w))
  | _ => .error (.illegal w)

/-- Major opcode E: the sub-opcode is w[7:0]. -/
def decodeKeys (w : Word) : Except DecodeError Instr :=
  match nnField w with
  | 0x9E => .ok (.skp (xField w))
  | 0xA1 => .ok (.sknp (xField w))
  | _ => .error (.illegal w)

/-- Major opcode F: the sub-opcode is w[7:0]. -/
def decodeMisc (w : Word) : Except DecodeError Instr :=
  match nnField w with
  | 0x07 => .ok (.ldVxDt (xField w))
  | 0x0A => .ok (.ldVxK (xField w))
  | 0x15 => .ok (.ldDtVx (xField w))
  | 0x18 => .ok (.ldStVx (xField w))
  | 0x1E => .ok (.addI (xField w))
  | 0x29 => .ok (.ldF (xField w))
  | 0x33 => .ok (.ldB (xField w))
  | 0x55 => .ok (.store (xField w))
  | 0x65 => .ok (.load (xField w))
  | _ => .error (.illegal w)

/-- `Decode(w)` (R95, in the decision structure of R97). The last arm is no opcode: the sixteen before it are all. -/
def decodeWord (w : Word) : Except DecodeError Instr :=
  match opField w with
  | 0x0 => decodeFixed w
  | 0x1 => .ok (.jp (nnnField w))
  | 0x2 => .ok (.call (nnnField w))
  | 0x3 => .ok (.seImm (xField w) (nnField w))
  | 0x4 => .ok (.sneImm (xField w) (nnField w))
  | 0x5 => if nField w = 0 then .ok (.seReg (xField w) (yField w)) else .error (.illegal w)
  | 0x6 => .ok (.ldImm (xField w) (nnField w))
  | 0x7 => .ok (.addImm (xField w) (nnField w))
  | 0x8 => decodeArith w
  | 0x9 => if nField w = 0 then .ok (.sneReg (xField w) (yField w)) else .error (.illegal w)
  | 0xA => .ok (.ldI (nnnField w))
  | 0xB => .ok (.jpV0 (nnnField w))
  | 0xC => .ok (.rnd (xField w) (nnField w))
  | 0xD => .ok (.drw (xField w) (yField w) (nField w))
  | 0xE => decodeKeys w
  | 0xF => decodeMisc w
  | _ => .error (.illegal w)

/-! ### Bytes: the high byte first (R67, R90) -/

/-- The instruction word of two consecutive bytes, the byte at the lower address being the high byte (R67). -/
def wordOfBytes (hi lo : Byte) : Word := (hi.setWidth 16 <<< 8) ||| lo.setWidth 16

/-- The byte of a word that stands at the lower address (R67). -/
def highByte (w : Word) : Byte := w.extractLsb' 8 8

/-- The byte of a word that stands at the higher address (R67). -/
def lowByte (w : Word) : Byte := w.extractLsb' 0 8

/-- A decoder always consumes exactly 2 bytes (R90): the instruction and the rest of the bytes, or the reason why not. -/
def decode : List Byte → Except DecodeError (Instr × List Byte)
  | hi :: lo :: rest =>
    match decodeWord (wordOfBytes hi lo) with
    | .ok i => .ok (i, rest)
    | .error e => .error e
  | _ => .error .truncated

/-! ### The encoder: the formats of R94 with the fixed nibbles of R95 -/

/-- Format ADDR: `o nnn`. -/
def encodeAddr (op : BitVec 4) (nnn : BitVec 12) : Word := (op.setWidth 16 <<< 12) ||| nnn.setWidth 16

/-- Formats XNN and X: `o x nn`, where in X the byte is the sub-opcode. -/
def encodeXNN (op : BitVec 4) (x : Reg) (nn : Byte) : Word :=
  (op.setWidth 16 <<< 12) ||| ((BitVec.ofFin (w := 4) x).setWidth 16 <<< 8) ||| nn.setWidth 16

/-- Formats XYN and XY: `o x y n`, where in XY the last nibble is the sub-opcode. -/
def encodeXYN (op : BitVec 4) (x y : Reg) (n : BitVec 4) : Word :=
  (op.setWidth 16 <<< 12) ||| ((BitVec.ofFin (w := 4) x).setWidth 16 <<< 8)
    ||| ((BitVec.ofFin (w := 4) y).setWidth 16 <<< 4) ||| n.setWidth 16

/-- The word of an instruction (R94, R95, R100). -/
def encode : Instr → Word
  | .cls => 0x00E0
  | .ret => 0x00EE
  | .jp nnn => encodeAddr 0x1 nnn
  | .call nnn => encodeAddr 0x2 nnn
  | .seImm x nn => encodeXNN 0x3 x nn
  | .sneImm x nn => encodeXNN 0x4 x nn
  | .seReg x y => encodeXYN 0x5 x y 0x0
  | .ldImm x nn => encodeXNN 0x6 x nn
  | .addImm x nn => encodeXNN 0x7 x nn
  | .ldReg x y => encodeXYN 0x8 x y 0x0
  | .orReg x y => encodeXYN 0x8 x y 0x1
  | .andReg x y => encodeXYN 0x8 x y 0x2
  | .xorReg x y => encodeXYN 0x8 x y 0x3
  | .addReg x y => encodeXYN 0x8 x y 0x4
  | .subReg x y => encodeXYN 0x8 x y 0x5
  | .shr x y => encodeXYN 0x8 x y 0x6
  | .subn x y => encodeXYN 0x8 x y 0x7
  | .shl x y => encodeXYN 0x8 x y 0xE
  | .sneReg x y => encodeXYN 0x9 x y 0x0
  | .ldI nnn => encodeAddr 0xA nnn
  | .jpV0 nnn => encodeAddr 0xB nnn
  | .rnd x nn => encodeXNN 0xC x nn
  | .drw x y n => encodeXYN 0xD x y n
  | .skp x => encodeXNN 0xE x 0x9E
  | .sknp x => encodeXNN 0xE x 0xA1
  | .ldVxDt x => encodeXNN 0xF x 0x07
  | .ldVxK x => encodeXNN 0xF x 0x0A
  | .ldDtVx x => encodeXNN 0xF x 0x15
  | .ldStVx x => encodeXNN 0xF x 0x18
  | .addI x => encodeXNN 0xF x 0x1E
  | .ldF x => encodeXNN 0xF x 0x29
  | .ldB x => encodeXNN 0xF x 0x33
  | .store x => encodeXNN 0xF x 0x55
  | .load x => encodeXNN 0xF x 0x65

/-- The two bytes of an instruction as they stand in memory (R67, R90). -/
def encodeBytes (i : Instr) : List Byte := [highByte (encode i), lowByte (encode i)]

/-! ### R95's table, as data -/

/-- The (mask, match) pairs of R95, row 1 to row 34. -/
def opcodeTable : List (Word × Word) :=
  [(0xFFFF, 0x00E0), (0xFFFF, 0x00EE), (0xF000, 0x1000), (0xF000, 0x2000), (0xF000, 0x3000), (0xF000, 0x4000)]
  ++ [(0xF00F, 0x5000), (0xF000, 0x6000), (0xF000, 0x7000), (0xF00F, 0x8000), (0xF00F, 0x8001), (0xF00F, 0x8002)]
  ++ [(0xF00F, 0x8003), (0xF00F, 0x8004), (0xF00F, 0x8005), (0xF00F, 0x8006), (0xF00F, 0x8007), (0xF00F, 0x800E)]
  ++ [(0xF00F, 0x9000), (0xF000, 0xA000), (0xF000, 0xB000), (0xF000, 0xC000), (0xF000, 0xD000), (0xF0FF, 0xE09E)]
  ++ [(0xF0FF, 0xE0A1), (0xF0FF, 0xF007), (0xF0FF, 0xF00A), (0xF0FF, 0xF015), (0xF0FF, 0xF018), (0xF0FF, 0xF01E)]
  ++ [(0xF0FF, 0xF029), (0xF0FF, 0xF033), (0xF0FF, 0xF055), (0xF0FF, 0xF065)]

/-- The (mask, match) pair of an instruction's own row of R95. -/
def Instr.row : Instr → Word × Word
  | .cls => (0xFFFF, 0x00E0)
  | .ret => (0xFFFF, 0x00EE)
  | .jp _ => (0xF000, 0x1000)
  | .call _ => (0xF000, 0x2000)
  | .seImm _ _ => (0xF000, 0x3000)
  | .sneImm _ _ => (0xF000, 0x4000)
  | .seReg _ _ => (0xF00F, 0x5000)
  | .ldImm _ _ => (0xF000, 0x6000)
  | .addImm _ _ => (0xF000, 0x7000)
  | .ldReg _ _ => (0xF00F, 0x8000)
  | .orReg _ _ => (0xF00F, 0x8001)
  | .andReg _ _ => (0xF00F, 0x8002)
  | .xorReg _ _ => (0xF00F, 0x8003)
  | .addReg _ _ => (0xF00F, 0x8004)
  | .subReg _ _ => (0xF00F, 0x8005)
  | .shr _ _ => (0xF00F, 0x8006)
  | .subn _ _ => (0xF00F, 0x8007)
  | .shl _ _ => (0xF00F, 0x800E)
  | .sneReg _ _ => (0xF00F, 0x9000)
  | .ldI _ => (0xF000, 0xA000)
  | .jpV0 _ => (0xF000, 0xB000)
  | .rnd _ _ => (0xF000, 0xC000)
  | .drw _ _ _ => (0xF000, 0xD000)
  | .skp _ => (0xF0FF, 0xE09E)
  | .sknp _ => (0xF0FF, 0xE0A1)
  | .ldVxDt _ => (0xF0FF, 0xF007)
  | .ldVxK _ => (0xF0FF, 0xF00A)
  | .ldDtVx _ => (0xF0FF, 0xF015)
  | .ldStVx _ => (0xF0FF, 0xF018)
  | .addI _ => (0xF0FF, 0xF01E)
  | .ldF _ => (0xF0FF, 0xF029)
  | .ldB _ => (0xF0FF, 0xF033)
  | .store _ => (0xF0FF, 0xF055)
  | .load _ => (0xF0FF, 0xF065)

/-! ### The host's question -/

/-- The instruction the decoder reads from an instruction whose bits are `w`, numbered as spec/opcode_table.json numbers
them: an instruction is one 16-bit word (R90), laid out high byte first (R67). Bits above `nbits` are 0. -/
def decodeTableWord (nbits w : Nat) : Option Instr :=
  let word : Word := BitVec.ofNat 16 (w % 2 ^ nbits)
  match decode [highByte word, lowByte word] with
  | .ok (i, _) => some i
  | .error _ => none

end Sys2Proof
end

