-- ==== Sys2Proof/Machine/Fetch.lean ====
section
/-! DEFINITION. Instruction fetch (spec/20_memory.md R63, R67), and placing an instruction where the next fetch finds it. -/

namespace Sys2Proof.Machine

/-- `{Mem[PC], Mem[PC+1]}` (R63, R67). -/
def State.wordAt (s : State) (a : Nat) : Word := wordOfBytes (s.mem.read a) (s.mem.read (a + 1))

/-- `Fetch()`: both bytes are checked before either is read (R63). -/
def State.fetch (s : State) : Except Trap Word :=
  match checkLast (s.pc.toNat + 1) .fetch with
  | .ok _ => .ok (s.wordAt s.pc.toNat)
  | .error e => .error e

/-- A PC from which an instruction can be fetched, for `placeWord`: PC itself, or 0x200 when PC lies beyond 0xFFE. -/
def State.fetchablePc (s : State) : Word := if s.pc.toNat + 1 < Config.memSize then s.pc else 0x200

/-- The state with an instruction word at the PC, running, and with a false stop input for the next cycle: all that the next
cycle needs to run that instruction. -/
def State.placeWord (s : State) (w : Word) : State :=
  { s with
    pc := s.fetchablePc
    mem := s.mem.writeRange s.fetchablePc.toNat [highByte w, lowByte w]
    status := .running
    inputs := { s.inputs with stop := { s.inputs.stop with pending := false :: s.inputs.stop.pending.tail } } }

end Sys2Proof.Machine
end

