-- ==== Sys2Proof/Machine/Scheduler.lean ====
section
/-! DEFINITION. The Cycle Scheduler (spec/60_exceptions.md R322 to R329): dispatch, the 60 Hz tick, the poll, and one cycle. -/

namespace Sys2Proof.Machine

/-! ### Dispatch (R91) -/

/-- `Dispatch()`: fetch, advance PC, decode, execute. A fetch fault leaves PC = IA, any other PC = IA + 2 unless the
instruction wrote it. -/
def dispatch (s : State) : Out :=
  match s.fetch with
  | .error (.raise k) => .next (s.raise s.pc k)
  | .error (.stop f) => .fault f
  | .ok w =>
    match decodeWord w with
    | .error _ => .next (s.advance.raise s.pc (.illegalInstruction w))
    | .ok i => exec i s.advance

/-! ### The tick (R325 to R328) -/

/-- A timer's decrement, stopping at 0 (R325). -/
def countDown (b : Byte) : Byte := if b = 0 then 0 else b - 1

/-- The Beeper command of a tick, from ST after its decrement (R326). -/
def beepCommand (st : Byte) : BeepCommand := if st = 0 then .pause else .play

/-- The timers' part of `TimerTick()` and its Beeper command (R325, R326), with the next due time one interval on (R328). -/
def State.tickTimers (s : State) : State :=
  let t := { s with dt := countDown s.dt, st := countDown s.st, timerDue := s.timerDue + 1 }
  { t.call (.beep (beepCommand t.st)) with beeper := some (beepCommand t.st) }

/-- `Display.flush()` (R327): the bitmap is presented, unless the Display reports a failure (R305). -/
def State.flush (s : State) (ia : Word) : State :=
  match s.callIo .flush with
  | (true, t) => t.raise ia (.peripheralError .flush)
  | (false, t) => { t with screen := some s.fb }

/-- The tick of a cycle, when the timer clock ticks (R322). -/
def State.tickPhase (s : State) (ia : Word) : State :=
  match s.takeTick with
  | (true, t) => t.tickTimers.flush ia
  | (false, t) => t

/-! ### The poll (R322, R324, R345) -/

/-- `max(0, next_instr_due − now)`, in BUDGETs (R322, R324). -/
def remainingTime (due : Nat) (now : Rat) : Rat := if now ≤ (due : Rat) then (due : Rat) - now else 0

/-- `Keyboard.poll(remaining)` and the next due time (R322, R324, R345). A poll that reports a failure changes no key
state (notes/assumptions/6.md). -/
def State.pollPhase (s : State) (ia : Word) : State :=
  match s.takePoll with
  | (d, t) =>
    match t.callIo (.poll (remainingTime s.instrDue d.now)) with
    | (true, u) => u.raise ia (.peripheralError .poll)
    | (false, u) => { u with held := d.held, newKey := d.newKey, instrDue := s.instrDue + 1 }

/-! ### One cycle (R322) -/

/-- What follows a dispatch: the tick and the poll, each only while no fault has ended the cycle (R300, R322). -/
def State.afterDispatch (s : State) (ia : Word) : State :=
  if s.status = .running then
    if (s.tickPhase ia).status = .running then (s.tickPhase ia).pollPhase ia else s.tickPhase ia
  else s

/-- The part of a cycle after the stop input: dispatch, tick, poll (R322). -/
def runCycle (s : State) : Out :=
  match dispatch s with
  | .next t => .next (t.afterDispatch s.pc)
  | .fault f => .fault f
  | .refused r => .refused r

/-- The start of a cycle: its record of port calls is empty, and its stop input has been taken (R322, R323). -/
def State.beginCycle (s : State) : State := { s with calls := [] }.takeStop.2

/-- `Cycle(env)` (R322, R323): only in `Running`. -/
def cycle (s : State) : Out :=
  match s.status with
  | .faulted r => .fault (.faulted r)
  | .stopped => .refused .stopped
  | .running => if s.stopInput then .next { s.beginCycle with status := .stopped } else runCycle s.beginCycle

/-! ### Due times in seconds, and the reference schedule (R324, R328, R329) -/

/-- `next_instr_due`, in seconds from the first cycle's time (R324). -/
def State.nextInstrDue (s : State) : Rat := s.instrDue * Config.budget

/-- `next_timer_due`, in seconds from the first cycle's time (R328). -/
def State.nextTimerDue (s : State) : Rat := s.timerDue / Config.timerHz

/-- The real-time rule for the tick (R328). In a cycle the tick is an input, not this (R321, D17). -/
def State.timerIsDue (s : State) (now : Rat) : Bool := decide (s.nextTimerDue ≤ now)

/-- R329's condition: with `m` ticks fired before cycle k, a tick fires in cycle k. -/
def refTickDue (cpuHz k m : Nat) : Bool := decide ((m + 1) * cpuHz ≤ 60 * k)

/-- The count of ticks after cycle k, from the count `m` before it (R329). -/
def refCount (cpuHz k m : Nat) : Nat := if refTickDue cpuHz k m then m + 1 else m

/-- `m_k`: the ticks the reference schedule fires in cycles 0 .. k−1 (R329). -/
def refTicksBefore (cpuHz : Nat) : Nat → Nat
  | 0 => 0
  | k + 1 => refCount cpuHz k (refTicksBefore cpuHz k)

/-- Does the reference schedule fire a tick in cycle k (R329)? -/
def refTick (cpuHz k : Nat) : Bool := refTickDue cpuHz k (refTicksBefore cpuHz k)

end Sys2Proof.Machine
end

