-- ==== Sys2Proof/Machine/Step.lean ====
section
/-! DEFINITION. The step: one cycle of the Cycle Scheduler (spec/60_exceptions.md R322). -/

namespace Sys2Proof.Machine

/-- One step is one cycle (R16, R322). -/
def step : State → Host.Outcome State Fault Refusal := cycle

/-- `s` with the instruction whose bits are `w` (spec/opcode_table.json's numbering; bits above `nbits` are 0) where the next
step fetches. -/
def State.withFetchWord (s : State) (nbits w : Nat) : State := s.placeWord (BitVec.ofNat 16 (w % 2 ^ nbits))

end Sys2Proof.Machine
end

