-- ==== Sys2Proof/Machine/Loader.lean ====
section
/-! DEFINITION. The host's load operations (spec/70_reset_and_hazards.md R371, R373) and the default font (spec/20_memory.md R66). -/

namespace Sys2Proof.Machine

/-- A load the host is refused (R371). -/
inductive LoadError where
  | tooLong (len : Nat)
  deriving DecidableEq, Repr

/-- The default glyph bytes: sixteen glyphs of five bytes (R66). -/
def defaultFontBytes : List Byte :=
  [0xF0, 0x90, 0x90, 0x90, 0xF0, 0x20, 0x60, 0x20, 0x20, 0x70, 0xF0, 0x10, 0xF0, 0x80, 0xF0, 0xF0, 0x10, 0xF0, 0x10, 0xF0]
  ++ [0x90, 0x90, 0xF0, 0x10, 0x10, 0xF0, 0x80, 0xF0, 0x10, 0xF0, 0xF0, 0x80, 0xF0, 0x90, 0xF0, 0xF0, 0x10, 0x20, 0x40, 0x40]
  ++ [0xF0, 0x90, 0xF0, 0x90, 0xF0, 0xF0, 0x90, 0xF0, 0x10, 0xF0, 0xF0, 0x90, 0xF0, 0x90, 0x90, 0xE0, 0x90, 0xE0, 0x90, 0xE0]
  ++ [0xF0, 0x80, 0x80, 0x80, 0xF0, 0xE0, 0x90, 0x90, 0x90, 0xE0, 0xF0, 0x80, 0xF0, 0x80, 0xF0, 0xF0, 0x80, 0xF0, 0x80, 0x80]

/-- The default of the parameter `FONT` (R66). -/
def defaultFont : Vector Byte 80 := ⟨defaultFontBytes.toArray, rfl⟩

/-- `load_font(f)` (R371): 0x000..0x04F. `FONT` is an argument (R66, D23). -/
def State.loadFont (s : State) (font : Vector Byte 80) : State := s.setMem (s.mem.writeRange 0 font.toList)

/-- `load_program(p)` (R371): verbatim from 0x200; an image over 3584 bytes is refused and writes nothing (D22). -/
def State.loadProgram (s : State) (image : List Byte) : Except LoadError State :=
  if Config.maxProgram < image.length then .error (.tooLong image.length)
  else .ok (s.setMem (s.mem.writeRange Config.programBase image))

/-- Steps 1 to 3 of the boot order: reset, font, program (R373). -/
def boot (font : Vector Byte 80) (image : List Byte) : Except LoadError State :=
  (State.reset.loadFont font).loadProgram image

end Sys2Proof.Machine
end

