-- ==== Sys2Proof/Safety.lean ====
section
/-! DEFINITION. The terms claims are made in: what a state leaves unchanged, what a run may reach, and when a program is finished. -/

namespace Sys2Proof.Machine

/-! ### Frames: the state, part by part -/

/-- One part of the state. Memory is taken byte by byte, through the read of one byte; the stack entry by entry. -/
inductive Part where
  | reg (r : Reg)
  | index
  | pc
  | sp
  | stackEntry (k : Fin 16)
  | dt
  | st
  | byte (a : Nat)
  | status
  | instrDue
  | timerDue
  | held
  | newKey
  | framebuffer
  | screen
  | beeper
  | edgePolicy
  | stopInput
  | tickInput
  | randInput
  | ioErrorInput
  | pollInput
  | calls
  deriving DecidableEq, Repr

/-- The part is the same in both states. -/
def Part.same (s t : State) : Part → Prop
  | .reg r => t.reg r = s.reg r
  | .index => t.i = s.i
  | .pc => t.pc = s.pc
  | .sp => t.sp = s.sp
  | .stackEntry k => t.stack[k.val] = s.stack[k.val]
  | .dt => t.dt = s.dt
  | .st => t.st = s.st
  | .byte a => t.mem.read a = s.mem.read a
  | .status => t.status = s.status
  | .instrDue => t.instrDue = s.instrDue
  | .timerDue => t.timerDue = s.timerDue
  | .held => t.held = s.held
  | .newKey => t.newKey = s.newKey
  | .framebuffer => t.fb = s.fb
  | .screen => t.screen = s.screen
  | .beeper => t.beeper = s.beeper
  | .edgePolicy => t.edgePolicy = s.edgePolicy
  | .stopInput => t.inputs.stop = s.inputs.stop
  | .tickInput => t.inputs.tick = s.inputs.tick
  | .randInput => t.inputs.rand = s.inputs.rand
  | .ioErrorInput => t.inputs.ioError = s.inputs.ioError
  | .pollInput => t.inputs.poll = s.inputs.poll
  | .calls => t.calls = s.calls

/-- Every part of the state that the list does not name is the same in both states. -/
def OnlyChanges (parts : List Part) (s t : State) : Prop := ∀ p, p ∉ parts → Part.same s t p

/-- The bytes at a, a+1, …, `n` of them, as parts. -/
def bytesFrom (a n : Nat) : List Part := (List.range n).map fun k => .byte (a + k)

/-- The registers V0..Vx, as parts. -/
def regsThrough (x : Reg) : List Part := ((List.finRange 16).filter (· ≤ x)).map .reg

/-- The instruction has the mask and match of its row of R95. -/
def EncodedAs (i : Instr) (mask bits : Word) : Prop := encode i &&& mask = bits

/-- Some 1 bit of the sprite lands on the pixel (R342): bit 7 − b of row byte r is placed at (cx + b, cy + r). -/
def SpriteLights (p : Config.EdgePolicy) (cx cy : Byte) (bytes : List Byte) (px : Fin 64) (py : Fin 32) : Prop :=
  ∃ r b, r < bytes.length ∧ b < 8 ∧ (bytes.getD r 0).getLsbD (7 - b) = true ∧
    place p (cx.toNat + b) (cy.toNat + r) = some (px, py)

/-! ### What the tail of a cycle leaves (R322 to R328, R345) -/

/-- The timers, the Beeper and the timer clock after a tick (R325, R326, R328). -/
structure Ticked (u t : State) : Prop where
  delay : t.dt.toNat = u.dt.toNat - 1
  sound : t.st.toNat = u.st.toNat - 1
  plays : t.st ≠ 0 → t.beeper = some .play
  pauses : t.st = 0 → t.beeper = some .pause
  due : t.timerDue = u.timerDue + 1

/-- The poll call of a cycle: it may last `max(0, next_instr_due - now)` (R322, R324). -/
def State.pollCall (u : State) : PortCall := .poll (max 0 ((u.instrDue : Rat) - u.nextPoll.now))

/-- `t` is `u` after a tail none of whose calls failed: the tick, if its input is true, then the poll (R322). -/
structure TailRan (u t : State) : Prop where
  tick : u.tickInput = true → Ticked u t ∧ t.screen = some u.fb ∧
    ∃ c, t.beeper = some c ∧ t.calls = u.calls ++ [.beep c, .flush, u.pollCall]
  noTick : u.tickInput = false → t.dt = u.dt ∧ t.st = u.st ∧ t.beeper = u.beeper ∧ t.screen = u.screen ∧
    t.timerDue = u.timerDue ∧ t.calls = u.calls ++ [u.pollCall]
  poll : t.held = u.nextPoll.held ∧ t.newKey = u.nextPoll.newKey ∧ t.instrDue = u.instrDue + 1

/-- A call whose failure the environment draws: every one but the Beeper's (R305, R350). -/
def PortCall.mayFail : PortCall → Bool
  | .beep _ => false
  | .clear | .draw _ _ _ | .flush | .poll _ => true

/-! ### What every run keeps -/

/-- The bound of R28: every value written to PC lies in 0..=0x10FE. -/
def pcBound : Nat := 0x10FE

/-- Memory is in canonical form (R60); SP counts at most 16 entries (R31); PC is in the range of R28; every occupied entry
is a PC a call pushed, at most 0x1000 (R28, R121); the due times have started (R324, R328). -/
structure Inv (s : State) : Prop where
  memory : s.mem.wf
  stackPointer : s.sp.toNat ≤ Config.stackDepth
  programCounter : s.pc.toNat ≤ pcBound
  returnAddresses : ∀ k : Fin 16, k.val < s.sp.toNat → s.stack[k.val].toNat ≤ 0x1000
  dueTimes : 1 ≤ s.instrDue ∧ 1 ≤ s.timerDue

/-! ### The end of a run (R384) -/

/-- Parked: running, with a fetchable jump to its own address at PC (R384). -/
def Parked (s : State) : Prop :=
  s.status = .running ∧ s.pc.toNat + 1 < Config.memSize ∧
    ∃ nnn, decodeWord (s.wordAt s.pc.toNat) = .ok (.jp nnn) ∧ addrOperand nnn = s.pc

/-- The points at which a claim about a program's result is stated (R384): parked, stopped or faulted. -/
def Finished (s : State) : Prop := Parked s ∨ s.status = .stopped ∨ ∃ r, s.status = .faulted r

/-- A cycle boundary a run from the boot state `s₀` reaches: any inputs (R321) and either edge policy (R343), then any number
of steps. -/
inductive Reaches (s₀ : State) : State → Prop where
  | start (inputs : Inputs) (policy : Config.EdgePolicy) : Reaches s₀ { s₀ with inputs := inputs, edgePolicy := policy }
  | step {s t : State} : Reaches s₀ s → Sys2Proof.Machine.step s = .next t → Reaches s₀ t

end Sys2Proof.Machine
end

