-- ==== Sys2Proof/Certificates/Slice0/Obligations.lean ====
section
/-! DEFINITION. The statements for the provers. In a statement about `exec`, `s` is the state after the fetch-and-advance of
spec/30_encoding.md R91, so `s.pc` is IA + 2 and `s.pc - 2` is IA. `OnlyChanges parts s t` is the frame: every part of the
state that the list does not name is the same in `t` as in `s` (Safety.lean). -/

open Sys2Proof Sys2Proof.Machine

/-! ### Encoding -/

/-- The two bytes of an encoded instruction, whatever follows them, decode to that instruction, and the decoder takes exactly
those two bytes (R90, R92 to R95). -/
def Obligations.DecodeEncodeRoundTrip : Prop :=
  ∀ (i : Instr) (rest : List Byte), decode (encodeBytes i ++ rest) = .ok (i, rest)

/-- A word that decodes is the encoding of what it decodes to: no bit of it is dropped (R92 to R95). -/
def Obligations.EncodeDecodeRoundTrip : Prop :=
  ∀ (w : Word) (i : Instr), decodeWord w = .ok i → encode i = w

/-- The decoder, written in the structure of R97, is R95's table: a word that matches a row decodes to an instruction of that
row, a decoded word matches its instruction's row, and a word that matches no row is illegal. -/
def Obligations.DecoderFollowsTable : Prop :=
  (∀ (w : Word) (r : Word × Word), r ∈ opcodeTable → w &&& r.1 = r.2 → ∃ i, decodeWord w = .ok i ∧ i.row = r) ∧
  (∀ (w : Word) (i : Instr), decodeWord w = .ok i → i.row ∈ opcodeTable ∧ w &&& i.row.1 = i.row.2) ∧
  (∀ w : Word, (∀ r ∈ opcodeTable, w &&& r.1 ≠ r.2) → decodeWord w = .error (.illegal w))

/-- No word matches two rows of R95's table (R96). -/
def Obligations.TableRowsAreDisjoint : Prop :=
  ∀ w : Word, opcodeTable.Pairwise fun a b => ¬ (w &&& a.1 = a.2 ∧ w &&& b.1 = b.2)

/-- The illegal words are those R98 lists, by major opcode. -/
def Obligations.IllegalWordsAreThoseListed : Prop :=
  ∀ w : Word, decodeWord w = .error (.illegal w) ↔
    (opField w = 0x0 ∧ w ≠ 0x00E0 ∧ w ≠ 0x00EE) ∨
    (opField w = 0x5 ∧ nField w ≠ 0) ∨
    (opField w = 0x8 ∧ nField w ∈ ([0x8, 0x9, 0xA, 0xB, 0xC, 0xD, 0xF] : List (BitVec 4))) ∨
    (opField w = 0x9 ∧ nField w ≠ 0) ∨
    (opField w = 0xE ∧ nnField w ∉ ([0x9E, 0xA1] : List Byte)) ∨
    (opField w = 0xF ∧ nnField w ∉ ([0x07, 0x0A, 0x15, 0x18, 0x1E, 0x29, 0x33, 0x55, 0x65] : List Byte))

/-- Words the spec's examples write out, and the instructions it says they are. -/
def Obligations.ExampleWordsDecode : Prop :=
  decode [0x60, 0x05] = .ok (.ldImm 0 0x05, []) ∧ decode [0x80, 0x14] = .ok (.addReg 0 1, []) ∧
  decode [0xD0, 0x05] = .ok (.drw 0 0 5, []) ∧ decode [0x12, 0x08] = .ok (.jp 0x208, []) ∧
  decode [0xF2, 0x55] = .ok (.store 2, []) ∧ decode [0xE1, 0x9E] = .ok (.skp 1, []) ∧
  decode [0x00, 0xEE] = .ok (.ret, []) ∧ decode [0x01, 0x23] = .error (.illegal 0x0123)

/-! ### The cycle -/

/-- A running machine with no stop input whose two bytes at PC decode to `i` runs `i`, in the state that has taken the stop
input, begun a new record of port calls and moved PC past the word; then come the tick and the poll
(`State.afterDispatch`), with the instruction's own address for any fault of theirs (R91, R322). -/
def Obligations.StepRunsDecodedInstruction : Prop :=
  ∀ (s : State) (i : Instr), s.status = .running → s.stopInput = false → s.pc.toNat + 1 < 4096 →
    decode [s.mem.read s.pc.toNat, s.mem.read (s.pc.toNat + 1)] = .ok (i, []) →
    (∀ t, exec i s.beginCycle.advance = .next t → step s = .next (t.afterDispatch s.pc)) ∧
    (∀ f, exec i s.beginCycle.advance = .fault f → step s = .fault f) ∧
    s.beginCycle.advance.pc = s.pc + 2 ∧ s.beginCycle.advance.inputs.stop = s.inputs.stop.rest ∧
    s.beginCycle.advance.calls = [] ∧ OnlyChanges [.pc, .stopInput, .calls] s s.beginCycle.advance

/-- Fetch (R63): when PC + 1 lies beyond memory the cycle raises `MemoryBounds` with that address before PC is advanced, and
nothing else changes; otherwise the word is the byte at PC times 256 plus the byte at PC + 1. -/
def Obligations.FetchChecksBothBytes : Prop :=
  (∀ s : State, s.status = .running → s.stopInput = false → 4096 ≤ s.pc.toNat + 1 →
    ∃ t, step s = .next t ∧
      t.status = .faulted ⟨.memoryBounds (BitVec.ofNat 17 (s.pc.toNat + 1)) .fetch, s.pc⟩ ∧
      t.calls = [] ∧ OnlyChanges [.status, .stopInput, .calls] s t) ∧
  (∀ s : State, s.pc.toNat + 1 < 4096 →
    ∃ w, s.fetch = .ok w ∧ w.toNat = (s.mem.read s.pc.toNat).toNat * 256 + (s.mem.read (s.pc.toNat + 1)).toNat)

/-- A fetched word that matches no row of R95 raises `IllegalInstruction` with the word and IA; PC is IA + 2; the core calls no
port (it neither clears nor flushes the Display, and neither ticks nor polls) and changes nothing else (R302). -/
def Obligations.IllegalWordFaults : Prop :=
  ∀ s : State, s.status = .running → s.stopInput = false → s.pc.toNat + 1 < 4096 →
    (∀ r ∈ opcodeTable, s.wordAt s.pc.toNat &&& r.1 ≠ r.2) →
    ∃ t, step s = .next t ∧ t.status = .faulted ⟨.illegalInstruction (s.wordAt s.pc.toNat), s.pc⟩ ∧
      t.pc = s.pc + 2 ∧ t.calls = [] ∧ OnlyChanges [.status, .pc, .stopInput, .calls] s t

/-- A true stop input ends the run before the dispatch: no instruction, tick or poll (R323). -/
def Obligations.StopInputEndsRun : Prop :=
  ∀ s : State, s.status = .running → s.stopInput = true →
    ∃ t, step s = .next t ∧ t.status = .stopped ∧ t.calls = [] ∧ t.inputs.stop = s.inputs.stop.rest ∧
      OnlyChanges [.status, .stopInput, .calls] s t

/-- No cycle runs in `Stopped` or `Faulted` (R38). That the step answers the refusal `stopped` in the one and the fault with the
state's own record in the other is the model's choice (notes/assumptions/2.md). -/
def Obligations.NoCycleOutsideRunning : Prop :=
  ∀ s : State, (s.status = .stopped → step s = .refused .stopped) ∧
    (∀ r, s.status = .faulted r → step s = .fault (.faulted r)) ∧
    (∀ t, step s = .next t → s.status = .running)

/-- A fault of the dispatch ends the cycle: the next state is the one the raise left, with no tick and no poll (R300). -/
def Obligations.FaultEndsCycle : Prop :=
  ∀ (s t : State) (r : FaultRecord), s.status = .running → s.stopInput = false →
    dispatch s.beginCycle = .next t → t.status = .faulted r →
    step s = .next t ∧ t.timerDue = s.timerDue ∧ t.instrDue = s.instrDue ∧ t.dt = s.dt ∧ t.st = s.st ∧
      t.beeper = s.beeper ∧ t.screen = s.screen ∧ t.held = s.held ∧ t.newKey = s.newKey

/-- A cycle with a tick (R325 to R327): both timers count down and stop at 0, the Beeper is told play or pause from ST after
its decrement, the Display is flushed, and then the Keyboard is polled, for at most `max(0, next_instr_due − now)`; the tick
moves `next_timer_due` on by one interval and the poll `next_instr_due` by one BUDGET. One draw is taken for the tick, one
for each of the two calls that may fail, and one for the poll. `u` is the state a dispatch left. -/
def Obligations.TickCountsTimersDown : Prop :=
  ∀ (u : State) (ia : Word), u.status = .running → u.tickInput = true → u.ioDraw 0 = false → u.ioDraw 1 = false →
    ∃ t c, u.afterDispatch ia = t ∧ Ticked u t ∧ t.beeper = some c ∧ t.screen = some u.fb ∧ t.instrDue = u.instrDue + 1 ∧
      t.held = u.nextPoll.held ∧ t.newKey = u.nextPoll.newKey ∧
      t.calls = u.calls ++ [.beep c, .flush, .poll (max 0 ((u.instrDue : Rat) - u.nextPoll.now))] ∧
      t.inputs.tick = u.inputs.tick.rest ∧ t.inputs.ioError = u.inputs.ioError.skip 2 ∧
      t.inputs.poll = u.inputs.poll.rest ∧
      OnlyChanges [.dt, .st, .beeper, .screen, .timerDue, .instrDue, .held, .newKey, .calls, .tickInput, .ioErrorInput,
        .pollInput] u t

/-- A cycle without a tick changes no timer, commands no Beeper and flushes nothing; its poll sets the held set and the latch as
the environment drew them, may last `max(0, next_instr_due − now)`, and moves `next_instr_due` on by one BUDGET
(R322, R324, R345). One draw is taken for the tick, one for the call and one for the poll. `u` is the state a dispatch
left. -/
def Obligations.PollSetsKeyState : Prop :=
  ∀ (u : State) (ia : Word), u.status = .running → u.tickInput = false → u.ioDraw 0 = false →
    ∃ t, u.afterDispatch ia = t ∧ t.held = u.nextPoll.held ∧ t.newKey = u.nextPoll.newKey ∧
      t.instrDue = u.instrDue + 1 ∧ t.calls = u.calls ++ [.poll (max 0 ((u.instrDue : Rat) - u.nextPoll.now))] ∧
      t.inputs.tick = u.inputs.tick.rest ∧ t.inputs.ioError = u.inputs.ioError.rest ∧
      t.inputs.poll = u.inputs.poll.rest ∧
      OnlyChanges [.held, .newKey, .instrDue, .calls, .tickInput, .ioErrorInput, .pollInput] u t

/-- A flush or a poll that reports a failure raises `PeripheralError` with the cycle's IA; what the instruction and the tick
have done stays, and a failed flush is followed by no poll (R300, R305): a failed flush; a failed poll in a cycle without a
tick; a failed poll after a tick whose flush succeeded. That a failed flush presents nothing and a failed poll changes no
key state is the model's choice (notes/assumptions/6.md), and the due times after either are its inference
(notes/assumptions/16.md). -/
def Obligations.PeripheralFailureInTail : Prop :=
  (∀ (u : State) (ia : Word), u.status = .running → u.tickInput = true → u.ioDraw 0 = true →
    ∃ t c, u.afterDispatch ia = t ∧ t.status = .faulted ⟨.peripheralError .flush, ia⟩ ∧ Ticked u t ∧ t.beeper = some c ∧
      t.calls = u.calls ++ [.beep c, .flush] ∧
      t.inputs.tick = u.inputs.tick.rest ∧ t.inputs.ioError = u.inputs.ioError.rest ∧
      OnlyChanges [.status, .dt, .st, .beeper, .timerDue, .calls, .tickInput, .ioErrorInput] u t) ∧
  (∀ (u : State) (ia : Word), u.status = .running → u.tickInput = false → u.ioDraw 0 = true →
    ∃ t, u.afterDispatch ia = t ∧ t.status = .faulted ⟨.peripheralError .poll, ia⟩ ∧
      t.calls = u.calls ++ [.poll (max 0 ((u.instrDue : Rat) - u.nextPoll.now))] ∧
      t.inputs.tick = u.inputs.tick.rest ∧ t.inputs.ioError = u.inputs.ioError.rest ∧
      t.inputs.poll = u.inputs.poll.rest ∧
      OnlyChanges [.status, .calls, .tickInput, .ioErrorInput, .pollInput] u t) ∧
  (∀ (u : State) (ia : Word), u.status = .running → u.tickInput = true → u.ioDraw 0 = false → u.ioDraw 1 = true →
    ∃ t c, u.afterDispatch ia = t ∧ t.status = .faulted ⟨.peripheralError .poll, ia⟩ ∧ Ticked u t ∧ t.beeper = some c ∧
      t.screen = some u.fb ∧
      t.calls = u.calls ++ [.beep c, .flush, .poll (max 0 ((u.instrDue : Rat) - u.nextPoll.now))] ∧
      t.inputs.tick = u.inputs.tick.rest ∧ t.inputs.ioError = u.inputs.ioError.skip 2 ∧
      t.inputs.poll = u.inputs.poll.rest ∧
      OnlyChanges [.status, .dt, .st, .beeper, .screen, .timerDue, .calls, .tickInput, .ioErrorInput, .pollInput] u t)

/-! ### Reset and loading -/

/-- What `reset()` leaves (R40, R370), and the hidden state at the start of a run (R372). -/
def Obligations.ResetLeavesZeroes : Prop :=
  (∀ x, State.reset.reg x = 0) ∧ State.reset.i = 0 ∧ State.reset.pc = 0x0200 ∧ State.reset.sp = 0 ∧
  (∀ k : Fin 16, State.reset.stack[k.val] = 0) ∧ State.reset.dt = 0 ∧ State.reset.st = 0 ∧
  (∀ a, a < 4096 → State.reset.mem.read a = 0) ∧ State.reset.status = .running ∧
  (∀ px py, State.reset.fb.lit px py = false) ∧ (∀ k, State.reset.keyHeld k = false) ∧ State.reset.newKey = none ∧
  State.reset.nextInstrDue = Config.budget ∧ State.reset.nextTimerDue = 1 / 60

/-- Loading (R371): an image of at most 3584 bytes goes verbatim to 0x200, after the font at 0x000..0x04F; every other byte is
0; no register changes; a longer image is refused with its length. -/
def Obligations.BootLoadsFontAndProgram : Prop :=
  (∀ (font : Vector Byte 80) (image : List Byte), image.length ≤ 3584 →
    ∃ s, boot font image = .ok s ∧
      (∀ k : Fin 80, s.mem.read k.val = font[k.val]) ∧
      (∀ k (h : k < image.length), s.mem.read (0x200 + k) = image[k]) ∧
      (∀ a, 80 ≤ a → a < 0x200 ∨ 0x200 + image.length ≤ a → s.mem.read a = 0) ∧
      s.mem.wf ∧ (∀ p, (∀ a, p ≠ .byte a) → Part.same State.reset s p)) ∧
  (∀ (font : Vector Byte 80) (image : List Byte), 3584 < image.length →
    boot font image = .error (.tooLong image.length))

/-! ### Invariants -/

/-- Every step keeps the invariant `Inv`: memory in canonical form, SP at most 16, PC in 0..=0x10FE (R28), every occupied stack
entry at most 0x1000, the due times started. -/
def Obligations.StepKeepsInvariant : Prop :=
  ∀ s t : State, Inv s → step s = .next t → Inv t

/-- The invariant holds at reset and after any load. -/
def Obligations.ResetAndBootMeetInvariant : Prop :=
  Inv State.reset ∧ ∀ (font : Vector Byte 80) (image : List Byte) (s : State), boot font image = .ok s → Inv s

/-- A run started from a loaded machine, with any inputs, never stops while it is running: every running state it reaches has a
next state, and the invariant. -/
def Obligations.RunningMachineAlwaysSteps : Prop :=
  ∀ (font : Vector Byte 80) (image : List Byte) (s₀ s : State), boot font image = .ok s₀ → Reaches s₀ s →
    Inv s ∧ (s.status = .running → ∃ t, step s = .next t)

/-! ### Whole-machine rules -/

/-- Every instruction answers a next state wherever SP is in its range, and none is refused in any state (R31, R300). -/
def Obligations.EveryInstructionAnswersNext : Prop :=
  (∀ (i : Instr) (s : State), s.sp.toNat ≤ 16 → ∃ t, exec i s = .next t) ∧
  (∀ (i : Instr) (s : State) (r : Refusal), exec i s ≠ .refused r)

/-- A fault inside an instruction leaves everything but `status` as the fetch-and-advance left it, with IA in its record
(R300, R308). The model's own record of the port call that failed, and the `io_error` draw taken for it, are named. That a
failed clear or draw leaves the bitmap as it was is the model's choice (notes/assumptions/6.md). -/
def Obligations.InstructionFaultsArePrecise : Prop :=
  ∀ (i : Instr) (s t : State) (r : FaultRecord), s.status = .running → exec i s = .next t → t.status = .faulted r →
    r.ia = s.pc - 2 ∧ OnlyChanges [.status, .ioErrorInput, .calls] s t

/-- Which instruction can raise which fault (R301's column "raised by"; R306: no other). -/
def Obligations.FaultKindsByInstruction : Prop :=
  ∀ (i : Instr) (s t : State) (r : FaultRecord), s.status = .running → exec i s = .next t → t.status = .faulted r →
    (i = .cls ∧ r.kind = .peripheralError .clear) ∨
    (i = .ret ∧ r.kind = .stackUnderflow) ∨
    (∃ nnn, i = .call nnn ∧ r.kind = .stackOverflow 16) ∨
    (∃ x y n, i = .drw x y n ∧
      (r.kind = .peripheralError .draw ∨ ∃ a : BitVec 17, 4096 ≤ a.toNat ∧ r.kind = .memoryBounds a .read)) ∨
    (∃ x, (i = .skp x ∨ i = .sknp x) ∧ ∃ v : Byte, 16 ≤ v.toNat ∧ r.kind = .keyRange v) ∨
    (∃ x, (i = .ldB x ∨ i = .store x) ∧ ∃ a : BitVec 17, 4096 ≤ a.toNat ∧ r.kind = .memoryBounds a .write) ∨
    (∃ x, i = .load x ∧ ∃ a : BitVec 17, 4096 ≤ a.toNat ∧ r.kind = .memoryBounds a .read)

/-- Only `Fx33` and `Fx55` write memory, and only the bytes I..I+2 and I..I+x, all of them inside memory (R61, R64). -/
def Obligations.OnlyStoresWriteMemory : Prop :=
  ∀ (i : Instr) (s t : State) (a : Nat), exec i s = .next t → t.mem.read a ≠ s.mem.read a →
    ∃ x, ((i = .ldB x ∧ a ≤ s.dataAddr 2) ∨ (i = .store x ∧ a ≤ s.dataAddr x.val)) ∧ s.dataAddr 0 ≤ a ∧ a < 4096

/-- Only `2nnn` and `00EE` touch the stack and its pointer (R32). -/
def Obligations.OnlyCallAndReturnTouchStack : Prop :=
  ∀ (i : Instr) (s t : State), exec i s = .next t → (t.sp ≠ s.sp ∨ t.stack ≠ s.stack) →
    i = .ret ∨ ∃ nnn, i = .call nnn

/-- I, DT and ST are each changed only by the instructions that write them, and PC only by jumps, calls, returns, skips and the
key wait (R26, R27, R36, R37, R120, R160, R200, R239). -/
def Obligations.SpecialRegisterWriters : Prop :=
  ∀ (i : Instr) (s t : State), exec i s = .next t →
    (t.i ≠ s.i → (∃ nnn, i = .ldI nnn) ∨ (∃ x, i = .addI x) ∨ ∃ x, i = .ldF x) ∧
    (t.dt ≠ s.dt → ∃ x, i = .ldDtVx x) ∧
    (t.st ≠ s.st → ∃ x, i = .ldStVx x) ∧
    (t.pc ≠ s.pc → i = .ret ∨ (∃ nnn, i = .jp nnn ∨ i = .call nnn ∨ i = .jpV0 nnn) ∨
      (∃ x nn, i = .seImm x nn ∨ i = .sneImm x nn) ∨ (∃ x y, i = .seReg x y ∨ i = .sneReg x y) ∨
      ∃ x, i = .skp x ∨ i = .sknp x ∨ i = .ldVxK x)

/-- VF is changed only by the flag writers of R29 and by instructions whose destination it is (R23, R29). -/
def Obligations.FlagWriters : Prop :=
  ∀ (i : Instr) (s t : State), exec i s = .next t → t.reg 15 ≠ s.reg 15 →
    (∃ x y, i = .addReg x y ∨ i = .subReg x y ∨ i = .shr x y ∨ i = .subn x y ∨ i = .shl x y) ∨
    (∃ x y n, i = .drw x y n) ∨ (∃ x, i = .addI x) ∨
    (∃ nn, i = .ldImm 15 nn ∨ i = .addImm 15 nn ∨ i = .rnd 15 nn) ∨
    (∃ y, i = .ldReg 15 y ∨ i = .orReg 15 y ∨ i = .andReg 15 y ∨ i = .xorReg 15 y) ∨
    i = .ldVxDt 15 ∨ i = .ldVxK 15 ∨ i = .load 15

/-- No instruction changes the scheduler's due times, the held set, what was last presented, the Beeper, the edge policy, or the
stop, tick and poll inputs; nor does any flush, command the Beeper or poll (R239, R310, R326, R345). -/
def Obligations.NoInstructionActsForTheScheduler : Prop :=
  ∀ (i : Instr) (s t : State), exec i s = .next t →
    (∀ p ∈ [Part.instrDue, .timerDue, .held, .screen, .beeper, .edgePolicy, .stopInput, .tickInput, .pollInput],
      Part.same s t p) ∧
    (t.calls = s.calls ∨ t.calls = s.calls ++ [.clear] ∨ ∃ x y bytes, t.calls = s.calls ++ [.draw x y bytes])

/-! ### Control flow -/

/-- `00EE` RET (R121, R34): with an entry on the stack PC is the top entry and SP one less, the entry staying as it is; with none
it raises `StackUnderflow` and nothing else changes. -/
def Obligations.ReturnPopsProgramCounter : Prop :=
  EncodedAs .ret 0xFFFF 0x00EE ∧
  (∀ (s : State) (k : Fin 16), s.sp.toNat = k.val + 1 →
    ∃ t, exec .ret s = .next t ∧ t.pc = s.stack[k.val] ∧ t.sp.toNat = k.val ∧ OnlyChanges [.pc, .sp] s t) ∧
  (∀ s : State, s.sp = 0 →
    ∃ t, exec .ret s = .next t ∧ t.status = .faulted ⟨.stackUnderflow, s.pc - 2⟩ ∧ OnlyChanges [.status] s t)

/-- `2nnn` CALL (R123, R33): with fewer than 16 entries the advanced PC is pushed and PC is nnn; with 16 it raises
`StackOverflow` and nothing else changes. -/
def Obligations.CallPushesReturnAddress : Prop :=
  (∀ nnn, EncodedAs (.call nnn) 0xF000 0x2000) ∧
  (∀ (s : State) (nnn : BitVec 12) (k : Fin 16), s.sp.toNat = k.val →
    ∃ t, exec (.call nnn) s = .next t ∧ t.pc.toNat = nnn.toNat ∧ t.sp.toNat = k.val + 1 ∧ t.stack[k.val] = s.pc ∧
      OnlyChanges [.pc, .sp, .stackEntry k] s t) ∧
  (∀ (s : State) (nnn : BitVec 12), s.sp.toNat = 16 →
    ∃ t, exec (.call nnn) s = .next t ∧ t.status = .faulted ⟨.stackOverflow 16, s.pc - 2⟩ ∧ OnlyChanges [.status] s t)

/-- A return undoes a call (R121's and R123's property): from any state whose SP and top entry are as the call left them, `00EE`
gives the PC after the call and the SP before it. -/
def Obligations.ReturnUndoesCall : Prop :=
  ∀ (s t u : State) (nnn : BitVec 12) (k : Fin 16), s.sp.toNat = k.val → exec (.call nnn) s = .next t →
    u.sp = t.sp → u.stack[k.val] = t.stack[k.val] →
    ∃ w, exec .ret u = .next w ∧ w.pc = s.pc ∧ w.sp = s.sp ∧ OnlyChanges [.pc, .sp] u w

/-- `1nnn` JP and `Bnnn` JP V0 (R122, R124): PC is nnn, or V0 + nnn without any reduction. -/
def Obligations.JumpsSetProgramCounter : Prop :=
  (∀ nnn, EncodedAs (.jp nnn) 0xF000 0x1000 ∧ EncodedAs (.jpV0 nnn) 0xF000 0xB000) ∧
  ∀ (s : State) (nnn : BitVec 12),
    (∃ t, exec (.jp nnn) s = .next t ∧ t.pc.toNat = nnn.toNat ∧ OnlyChanges [.pc] s t) ∧
    (∃ t, exec (.jpV0 nnn) s = .next t ∧ t.pc.toNat = (s.reg 0).toNat + nnn.toNat ∧ OnlyChanges [.pc] s t)

/-- `3xnn` SE and `4xnn` SNE (R125 to R127): PC moves over the next instruction exactly when the condition holds. -/
def Obligations.SkipsOnImmediate : Prop :=
  (∀ x nn, EncodedAs (.seImm x nn) 0xF000 0x3000 ∧ EncodedAs (.sneImm x nn) 0xF000 0x4000) ∧
  ∀ (s : State) (x : Reg) (nn : Byte),
    (∃ t, exec (.seImm x nn) s = .next t ∧ (s.reg x = nn → t.pc = s.pc + 2) ∧ (s.reg x ≠ nn → t.pc = s.pc) ∧
      OnlyChanges [.pc] s t) ∧
    (∃ t, exec (.sneImm x nn) s = .next t ∧ (s.reg x ≠ nn → t.pc = s.pc + 2) ∧ (s.reg x = nn → t.pc = s.pc) ∧
      OnlyChanges [.pc] s t)

/-- `5xy0` SE and `9xy0` SNE (R128, R129), whose last nibble must be 0: PC moves over the next instruction exactly when the
condition holds. -/
def Obligations.SkipsOnRegisters : Prop :=
  (∀ x y, EncodedAs (.seReg x y) 0xF00F 0x5000 ∧ EncodedAs (.sneReg x y) 0xF00F 0x9000) ∧
  (∀ w : Word, opField w = 0x5 ∨ opField w = 0x9 → nField w ≠ 0 → decodeWord w = .error (.illegal w)) ∧
  ∀ (s : State) (x y : Reg),
    (∃ t, exec (.seReg x y) s = .next t ∧ (s.reg x = s.reg y → t.pc = s.pc + 2) ∧ (s.reg x ≠ s.reg y → t.pc = s.pc) ∧
      OnlyChanges [.pc] s t) ∧
    (∃ t, exec (.sneReg x y) s = .next t ∧ (s.reg x ≠ s.reg y → t.pc = s.pc + 2) ∧ (s.reg x = s.reg y → t.pc = s.pc) ∧
      OnlyChanges [.pc] s t)

/-! ### Loads and ALU -/

/-- `6xnn` LD and `7xnn` ADD (R161, R162): nn, or the sum mod 256 with no flag. -/
def Obligations.ImmediateLoadAndAdd : Prop :=
  (∀ x nn, EncodedAs (.ldImm x nn) 0xF000 0x6000 ∧ EncodedAs (.addImm x nn) 0xF000 0x7000) ∧
  ∀ (s : State) (x : Reg) (nn : Byte),
    (∃ t, exec (.ldImm x nn) s = .next t ∧ t.reg x = nn ∧ OnlyChanges [.reg x] s t) ∧
    (∃ t, exec (.addImm x nn) s = .next t ∧ (t.reg x).toNat = ((s.reg x).toNat + nn.toNat) % 256 ∧
      OnlyChanges [.reg x] s t)

/-- `8xy0` to `8xy3` (R170 to R173): copy, or, and, exclusive or, bit by bit; no flag is written. -/
def Obligations.CopyAndLogic : Prop :=
  (∀ x y, EncodedAs (.ldReg x y) 0xF00F 0x8000 ∧ EncodedAs (.orReg x y) 0xF00F 0x8001 ∧
    EncodedAs (.andReg x y) 0xF00F 0x8002 ∧ EncodedAs (.xorReg x y) 0xF00F 0x8003) ∧
  ∀ (s : State) (x y : Reg),
    (∃ t, exec (.ldReg x y) s = .next t ∧ t.reg x = s.reg y ∧ OnlyChanges [.reg x] s t) ∧
    (∃ t, exec (.orReg x y) s = .next t ∧
      (∀ b < 8, (t.reg x).getLsbD b = ((s.reg x).getLsbD b || (s.reg y).getLsbD b)) ∧ OnlyChanges [.reg x] s t) ∧
    (∃ t, exec (.andReg x y) s = .next t ∧
      (∀ b < 8, (t.reg x).getLsbD b = ((s.reg x).getLsbD b && (s.reg y).getLsbD b)) ∧ OnlyChanges [.reg x] s t) ∧
    (∃ t, exec (.xorReg x y) s = .next t ∧
      (∀ b < 8, (t.reg x).getLsbD b = ((s.reg x).getLsbD b ^^ (s.reg y).getLsbD b)) ∧ OnlyChanges [.reg x] s t)

/-- `8xy4` ADD (R174): the sum mod 256, then VF = 1 exactly when the sum is over 255; with x = 15 the flag is what VF holds. -/
def Obligations.AddSetsCarry : Prop :=
  (∀ x y, EncodedAs (.addReg x y) 0xF00F 0x8004) ∧
  ∀ (s : State) (x y : Reg),
    ∃ t, exec (.addReg x y) s = .next t ∧
      (x ≠ 15 → (t.reg x).toNat = ((s.reg x).toNat + (s.reg y).toNat) % 256) ∧
      (255 < (s.reg x).toNat + (s.reg y).toNat → t.reg 15 = 1) ∧
      ((s.reg x).toNat + (s.reg y).toNat ≤ 255 → t.reg 15 = 0) ∧ OnlyChanges [.reg x, .reg 15] s t

/-- `8xy5` SUB and `8xy7` SUBN (R175, R177): the difference mod 256, then VF = 1 exactly when nothing was borrowed; with x = 15
the flag is what VF holds. -/
def Obligations.SubtractionsSetNoBorrow : Prop :=
  (∀ x y, EncodedAs (.subReg x y) 0xF00F 0x8005 ∧ EncodedAs (.subn x y) 0xF00F 0x8007) ∧
  ∀ (s : State) (x y : Reg),
    (∃ t, exec (.subReg x y) s = .next t ∧
      (x ≠ 15 → ((t.reg x).toNat : Int) = (((s.reg x).toNat : Int) - (s.reg y).toNat) % 256) ∧
      ((s.reg y).toNat ≤ (s.reg x).toNat → t.reg 15 = 1) ∧ ((s.reg x).toNat < (s.reg y).toNat → t.reg 15 = 0) ∧
      OnlyChanges [.reg x, .reg 15] s t) ∧
    (∃ t, exec (.subn x y) s = .next t ∧
      (x ≠ 15 → ((t.reg x).toNat : Int) = (((s.reg y).toNat : Int) - (s.reg x).toNat) % 256) ∧
      ((s.reg x).toNat ≤ (s.reg y).toNat → t.reg 15 = 1) ∧ ((s.reg y).toNat < (s.reg x).toNat → t.reg 15 = 0) ∧
      OnlyChanges [.reg x, .reg 15] s t)

/-- `8xy6` SHR and `8xyE` SHL (R176, R178; 90_conflicts.md C1): Vx shifted by one, zero filled, then VF = the bit shifted out,
old bit 0 or old bit 7; Vy is not read; with x = 15 the flag is what VF holds. -/
def Obligations.ShiftsReportBitShiftedOut : Prop :=
  (∀ x y, EncodedAs (.shr x y) 0xF00F 0x8006 ∧ EncodedAs (.shl x y) 0xF00F 0x800E) ∧
  (∀ (s : State) (x y z : Reg), exec (.shr x y) s = exec (.shr x z) s ∧ exec (.shl x y) s = exec (.shl x z) s) ∧
  ∀ (s : State) (x y : Reg),
    (∃ t, exec (.shr x y) s = .next t ∧ (x ≠ 15 → (t.reg x).toNat = (s.reg x).toNat / 2) ∧
      (t.reg 15).toNat = (s.reg x).toNat % 2 ∧ OnlyChanges [.reg x, .reg 15] s t) ∧
    (∃ t, exec (.shl x y) s = .next t ∧ (x ≠ 15 → (t.reg x).toNat = (s.reg x).toNat * 2 % 256) ∧
      (t.reg 15).toNat = (s.reg x).toNat / 128 ∧ OnlyChanges [.reg x, .reg 15] s t)

/-- `Cxnn` RND (R180, R355): one draw of the random port, masked; the draw is any byte the port has ready, and each execution
takes its own. With none ready the draw is the free value of notes/assumptions/4.md, whatever it is. -/
def Obligations.RandomByteIsMasked : Prop :=
  (∀ x nn, EncodedAs (.rnd x nn) 0xF000 0xC000) ∧
  (∀ (s : State) (x : Reg) (nn : Byte),
    ∃ t, exec (.rnd x nn) s = .next t ∧ t.reg x = nn &&& s.nextRand ∧
      t.inputs.rand = s.inputs.rand.rest ∧ OnlyChanges [.reg x, .randInput] s t) ∧
  (∀ (s : State) (r : Byte) (rest : List Byte), s.inputs.rand.pending = r :: rest → s.nextRand = r)

/-! ### The index register and memory -/

/-- `Annn` LD I, `Fx1E` ADD I and `Fx29` LD F (R201 to R203): nnn; the sum mod 65536 with VF = the carry out of bit 15; the whole
of Vx times 5. -/
def Obligations.IndexRegisterWrites : Prop :=
  (∀ nnn, EncodedAs (.ldI nnn) 0xF000 0xA000) ∧
  (∀ x, EncodedAs (.addI x) 0xF0FF 0xF01E ∧ EncodedAs (.ldF x) 0xF0FF 0xF029) ∧
  (∀ (s : State) (nnn : BitVec 12),
    ∃ t, exec (.ldI nnn) s = .next t ∧ t.i.toNat = nnn.toNat ∧ OnlyChanges [.index] s t) ∧
  (∀ (s : State) (x : Reg),
    (∃ t, exec (.addI x) s = .next t ∧ t.i.toNat = (s.i.toNat + (s.reg x).toNat) % 65536 ∧
      (0xFFFF < s.i.toNat + (s.reg x).toNat → t.reg 15 = 1) ∧ (s.i.toNat + (s.reg x).toNat ≤ 0xFFFF → t.reg 15 = 0) ∧
      OnlyChanges [.index, .reg 15] s t) ∧
    (∃ t, exec (.ldF x) s = .next t ∧ t.i.toNat = (s.reg x).toNat * 5 ∧ OnlyChanges [.index] s t))

/-- `Fx33` LD B (R204): the hundreds, tens and ones digits of Vx at I, I+1 and I+2, and no other byte; or, when I + 2 is not in
memory, `MemoryBounds` and no byte written. -/
def Obligations.DecimalDigitsAreStored : Prop :=
  (∀ x, EncodedAs (.ldB x) 0xF0FF 0xF033) ∧
  (∀ (s : State) (x : Reg), s.mem.wf → s.dataAddr 2 < 4096 →
    ∃ t, exec (.ldB x) s = .next t ∧
      (t.mem.read (s.dataAddr 0)).toNat = (s.reg x).toNat / 100 ∧
      (t.mem.read (s.dataAddr 1)).toNat = (s.reg x).toNat / 10 % 10 ∧
      (t.mem.read (s.dataAddr 2)).toNat = (s.reg x).toNat % 10 ∧
      OnlyChanges (bytesFrom (s.dataAddr 0) 3) s t) ∧
  (∀ (s : State) (x : Reg), 4096 ≤ s.dataAddr 2 →
    ∃ t, exec (.ldB x) s = .next t ∧
      t.status = .faulted ⟨.memoryBounds (BitVec.ofNat 17 (s.dataAddr 2)) .write, s.pc - 2⟩ ∧
      OnlyChanges [.status] s t)

/-- `Fx55` LD [I], Vx (R205): V0..Vx at I..I+x, no other byte, I unchanged; or, when I + x is not in memory, `MemoryBounds` and
no byte written. -/
def Obligations.RegistersAreStored : Prop :=
  (∀ x, EncodedAs (.store x) 0xF0FF 0xF055) ∧
  (∀ (s : State) (x : Reg), s.mem.wf → s.dataAddr x.val < 4096 →
    ∃ t, exec (.store x) s = .next t ∧ (∀ r : Reg, r ≤ x → t.mem.read (s.dataAddr r.val) = s.reg r) ∧
      OnlyChanges (bytesFrom (s.dataAddr 0) (x.val + 1)) s t) ∧
  (∀ (s : State) (x : Reg), 4096 ≤ s.dataAddr x.val →
    ∃ t, exec (.store x) s = .next t ∧
      t.status = .faulted ⟨.memoryBounds (BitVec.ofNat 17 (s.dataAddr x.val)) .write, s.pc - 2⟩ ∧
      OnlyChanges [.status] s t)

/-- `Fx65` LD Vx, [I] (R206): V0..Vx from I..I+x, no other register, I and memory unchanged; or, when I + x is not in memory,
`MemoryBounds` and no register written. -/
def Obligations.RegistersAreLoaded : Prop :=
  (∀ x, EncodedAs (.load x) 0xF0FF 0xF065) ∧
  (∀ (s : State) (x : Reg), s.dataAddr x.val < 4096 →
    ∃ t, exec (.load x) s = .next t ∧ (∀ r : Reg, r ≤ x → t.reg r = s.mem.read (s.dataAddr r.val)) ∧
      OnlyChanges (regsThrough x) s t) ∧
  (∀ (s : State) (x : Reg), 4096 ≤ s.dataAddr x.val →
    ∃ t, exec (.load x) s = .next t ∧
      t.status = .faulted ⟨.memoryBounds (BitVec.ofNat 17 (s.dataAddr x.val)) .read, s.pc - 2⟩ ∧
      OnlyChanges [.status] s t)

/-- Storing V0..Vx and loading V0..Vx from the same address gives the registers back, whatever happened to them in between
(R206's property): `u` is any state with the memory and the I that the store left. -/
def Obligations.StoreThenLoadRestoresRegisters : Prop :=
  ∀ (s t u : State) (x : Reg), s.mem.wf → s.dataAddr x.val < 4096 → exec (.store x) s = .next t →
    u.mem = t.mem → u.i = t.i →
    ∃ w, exec (.load x) u = .next w ∧ ∀ r : Reg, r ≤ x → w.reg r = s.reg r

/-! ### Display -/

/-- `00E0` CLS (R240, R341): the Display is called once and every pixel is unlit, VF as it was; or the Display reports a failure
and `PeripheralError(clear)` is raised. Nothing is said of the bitmap after a failure. -/
def Obligations.ClearUnlightsEveryPixel : Prop :=
  EncodedAs .cls 0xFFFF 0x00E0 ∧
  (∀ s : State, s.ioDraw 0 = false →
    ∃ t, exec .cls s = .next t ∧ (∀ px py, t.fb.lit px py = false) ∧ t.calls = s.calls ++ [.clear] ∧
      t.inputs.ioError = s.inputs.ioError.rest ∧ OnlyChanges [.framebuffer, .calls, .ioErrorInput] s t) ∧
  (∀ s : State, s.ioDraw 0 = true →
    ∃ t, exec .cls s = .next t ∧ t.status = .faulted ⟨.peripheralError .clear, s.pc - 2⟩ ∧
      t.calls = s.calls ++ [.clear] ∧ t.inputs.ioError = s.inputs.ioError.rest ∧
      OnlyChanges [.status, .framebuffer, .calls, .ioErrorInput] s t)

/-- `Dxyn` DRW (R241): the n bytes from I drawn at (Vx, Vy), VF = 1 exactly when the draw collides; with n > 0 and I + n − 1 not
in memory, `MemoryBounds` and no Display call; with a Display that reports a failure, `PeripheralError(draw)` and VF
unchanged. Nothing is said of the bitmap after a failure. -/
def Obligations.DrawInstruction : Prop :=
  (∀ x y n, EncodedAs (.drw x y n) 0xF000 0xD000) ∧
  (∀ (s : State) (x y : Reg) (n : BitVec 4), (0 < n.toNat → s.dataAddr (n.toNat - 1) < 4096) →
    s.ioDraw 0 = false →
    ∃ t bytes, exec (.drw x y n) s = .next t ∧ bytes.length = n.toNat ∧
      (∀ k (h : k < bytes.length), bytes[k] = s.mem.read (s.dataAddr k)) ∧
      t.fb = (s.fb.draw s.edgePolicy (s.reg x) (s.reg y) bytes).1 ∧
      t.reg 15 = (if (s.fb.draw s.edgePolicy (s.reg x) (s.reg y) bytes).2 then 1 else 0) ∧
      t.calls = s.calls ++ [.draw (s.reg x) (s.reg y) bytes] ∧ t.inputs.ioError = s.inputs.ioError.rest ∧
      OnlyChanges [.reg 15, .framebuffer, .calls, .ioErrorInput] s t) ∧
  (∀ (s : State) (x y : Reg) (n : BitVec 4), 0 < n.toNat → 4096 ≤ s.dataAddr (n.toNat - 1) →
    ∃ t, exec (.drw x y n) s = .next t ∧
      t.status = .faulted ⟨.memoryBounds (BitVec.ofNat 17 (s.dataAddr (n.toNat - 1))) .read, s.pc - 2⟩ ∧
      OnlyChanges [.status] s t) ∧
  (∀ (s : State) (x y : Reg) (n : BitVec 4), (0 < n.toNat → s.dataAddr (n.toNat - 1) < 4096) →
    s.ioDraw 0 = true →
    ∃ t, exec (.drw x y n) s = .next t ∧ t.status = .faulted ⟨.peripheralError .draw, s.pc - 2⟩ ∧
      t.calls = s.calls ++ [.draw (s.reg x) (s.reg y) (s.mem.readRange (s.dataAddr 0) n.toNat)] ∧
      t.inputs.ioError = s.inputs.ioError.rest ∧
      OnlyChanges [.status, .framebuffer, .calls, .ioErrorInput] s t)

/-- The Display's `draw` (R342, R343), pixel by pixel: a pixel some 1 bit of the sprite lands on is turned, every other stays, and
the draw collides exactly when some 1 bit lands on a lit pixel. A bit goes to (cx + b, cy + r): under CLIP it is dropped
past the right or bottom edge, under WRAP it is taken mod 64 and mod 32. A sprite has at most 15 rows (R92). -/
def Obligations.DrawTurnsTheSpritesPixels : Prop :=
  (∀ (p : Config.EdgePolicy) (cx cy : Byte) (bytes : List Byte) (fb : Framebuffer), bytes.length ≤ 15 →
    (∀ px py, (fb.draw p cx cy bytes).1.lit px py = true ↔
      ((fb.lit px py = true ∧ ¬ SpriteLights p cx cy bytes px py) ∨
       (fb.lit px py = false ∧ SpriteLights p cx cy bytes px py))) ∧
    ((fb.draw p cx cy bytes).2 = true ↔ ∃ px py, fb.lit px py = true ∧ SpriteLights p cx cy bytes px py)) ∧
  (∀ px py (qx : Fin 64) (qy : Fin 32), place .clip px py = some (qx, qy) ↔ qx.val = px ∧ qy.val = py) ∧
  (∀ px py, place .clip px py = none ↔ 64 ≤ px ∨ 32 ≤ py) ∧
  (∀ px py, ∃ qx qy, place .wrap px py = some (qx, qy) ∧ qx.val = px % 64 ∧ qy.val = py % 32)

/-- Drawing the same sprite twice at the same place restores the bitmap, and the second draw collides exactly when the first
turned at least one pixel from unlit to lit (R344). -/
def Obligations.DoubleDrawRestoresBitmap : Prop :=
  ∀ (p : Config.EdgePolicy) (cx cy : Byte) (bytes : List Byte) (fb : Framebuffer), bytes.length ≤ 15 →
    ((fb.draw p cx cy bytes).1.draw p cx cy bytes).1 = fb ∧
    (((fb.draw p cx cy bytes).1.draw p cx cy bytes).2 = true ↔
      ∃ px py, fb.lit px py = false ∧ (fb.draw p cx cy bytes).1.lit px py = true)

/-! ### Timers and keys -/

/-- `Ex9E` SKP and `ExA1` SKNP (R271 to R273): with Vx a key, PC moves over the next instruction when that key is held, or when
it is not; with Vx of 16 or more, `KeyRange` and nothing else. -/
def Obligations.KeySkips : Prop :=
  (∀ x, EncodedAs (.skp x) 0xF0FF 0xE09E ∧ EncodedAs (.sknp x) 0xF0FF 0xE0A1) ∧
  (∀ (s : State) (x : Reg) (k : Key), (s.reg x).toNat = k.val →
    (∃ t, exec (.skp x) s = .next t ∧ t.pc = (if s.held[k.val] = true then s.pc + 2 else s.pc) ∧ OnlyChanges [.pc] s t) ∧
    (∃ t, exec (.sknp x) s = .next t ∧ t.pc = (if s.held[k.val] = true then s.pc else s.pc + 2) ∧
      OnlyChanges [.pc] s t)) ∧
  (∀ (s : State) (x : Reg), 16 ≤ (s.reg x).toNat →
    (∃ t, exec (.skp x) s = .next t ∧ t.status = .faulted ⟨.keyRange (s.reg x), s.pc - 2⟩ ∧ OnlyChanges [.status] s t) ∧
    (∃ t, exec (.sknp x) s = .next t ∧ t.status = .faulted ⟨.keyRange (s.reg x), s.pc - 2⟩ ∧ OnlyChanges [.status] s t))

/-- `Fx07`, `Fx15` and `Fx18` (R274 to R276): Vx is DT, DT is Vx, ST is Vx; the Beeper is not commanded. -/
def Obligations.TimerTransfers : Prop :=
  (∀ x, EncodedAs (.ldVxDt x) 0xF0FF 0xF007 ∧ EncodedAs (.ldDtVx x) 0xF0FF 0xF015 ∧
    EncodedAs (.ldStVx x) 0xF0FF 0xF018) ∧
  ∀ (s : State) (x : Reg),
    (∃ t, exec (.ldVxDt x) s = .next t ∧ t.reg x = s.dt ∧ OnlyChanges [.reg x] s t) ∧
    (∃ t, exec (.ldDtVx x) s = .next t ∧ t.dt = s.reg x ∧ OnlyChanges [.dt] s t) ∧
    (∃ t, exec (.ldStVx x) s = .next t ∧ t.st = s.reg x ∧ OnlyChanges [.st] s t)

/-- `Fx0A` LD Vx, K (R277, R346): with a key in the latch Vx is its code and the latch is empty; with none PC goes back to the
instruction's own address and nothing else changes. -/
def Obligations.KeyWait : Prop :=
  (∀ x, EncodedAs (.ldVxK x) 0xF0FF 0xF00A) ∧
  (∀ (s : State) (x : Reg) (k : Key), s.newKey = some k →
    ∃ t, exec (.ldVxK x) s = .next t ∧ (t.reg x).toNat = k.val ∧ t.newKey = none ∧
      OnlyChanges [.reg x, .newKey] s t) ∧
  (∀ (s : State) (x : Reg), s.newKey = none →
    ∃ t, exec (.ldVxK x) s = .next t ∧ t.pc = s.pc - 2 ∧ OnlyChanges [.pc] s t)

/-! ### Rules over a whole cycle -/

/-- A wait for a key leaves PC where it was after one cycle (R278, R277), which has its tail: with a tick both timers count down,
the Beeper is commanded and the Display flushed, and with or without one the Keyboard is polled (`TailRan`). No register, no
memory and no other part but those of the cycle's tail changes. -/
def Obligations.KeyWaitTakesOneCyclePerTry : Prop :=
  ∀ (s : State) (x : Reg), s.status = .running → s.stopInput = false → s.pc.toNat + 1 < 4096 →
    decodeWord (s.wordAt s.pc.toNat) = .ok (.ldVxK x) → s.newKey = none → (∀ k < 2, s.ioDraw k = false) →
    ∃ t, step s = .next t ∧ t.status = .running ∧ t.pc = s.pc ∧ TailRan s.beginCycle t ∧
      OnlyChanges [.dt, .st, .instrDue, .timerDue, .held, .newKey, .screen, .beeper, .stopInput, .tickInput, .ioErrorInput,
        .pollInput, .calls] s t

/-- A timer written in a cycle that also ticks is decremented at once (R275, R381). -/
def Obligations.TimerWriteThenTick : Prop :=
  ∀ (s : State) (x : Reg), s.status = .running → s.stopInput = false → s.pc.toNat + 1 < 4096 →
    s.tickInput = true → (∀ k < 2, s.ioDraw k = false) →
    (decodeWord (s.wordAt s.pc.toNat) = .ok (.ldDtVx x) →
      ∃ t, step s = .next t ∧ t.dt.toNat = (s.reg x).toNat - 1 ∧ t.pc = s.pc + 2) ∧
    (decodeWord (s.wordAt s.pc.toNat) = .ok (.ldStVx x) →
      ∃ t, step s = .next t ∧ t.st.toNat = (s.reg x).toNat - 1 ∧ t.pc = s.pc + 2) ∧
    (decodeWord (s.wordAt s.pc.toNat) = .ok (.ldVxDt x) →
      ∃ t, step s = .next t ∧ t.reg x = s.dt ∧ t.dt.toNat = s.dt.toNat - 1)

/-- A parked core (R384) that is not stopped and whose peripherals do not fail stays parked: PC, the registers and memory are as
they were, while the cycle's tail goes on: with a tick both timers count down, the Beeper is commanded and the Display
flushed, and with or without one the Keyboard is polled (`TailRan`). -/
def Obligations.ParkedCoreStaysParked : Prop :=
  ∀ s : State, Parked s → s.stopInput = false → (∀ k < 2, s.ioDraw k = false) →
    ∃ t, step s = .next t ∧ Parked t ∧ TailRan s.beginCycle t ∧
      OnlyChanges [.dt, .st, .instrDue, .timerDue, .held, .newKey, .screen, .beeper, .stopInput, .tickInput, .ioErrorInput,
        .pollInput, .calls] s t

/-- The reference schedule (R329): with CPU_HZ of at least 60 a tick fires in cycle k exactly when k = ceil(j · CPU_HZ / 60) for
some j of at least 1. -/
def Obligations.ReferenceScheduleTicks : Prop :=
  ∀ cpuHz k : Nat, 60 ≤ cpuHz →
    (refTick cpuHz k = true ↔ ∃ j, 1 ≤ j ∧ k = (j * cpuHz + 59) / 60)

/-! ### The environment's draws (R321) -/

/-- A draw that the environment has ready is the one the core takes: the next `stop`, `tick`, random byte and poll, and the
k-th failure draw to come; taking a draw leaves the later ones. Whatever is ready is admitted: no value of a draw is
excluded (R321). The draws that are not ready are free values (notes/assumptions/4.md), of which nothing is said. -/
def Obligations.ReadyDrawsAreTakenInOrder : Prop :=
  ∀ s : State,
    (∀ d ds, s.inputs.stop.pending = d :: ds →
      s.stopInput = d ∧ s.inputs.stop.rest.pending = ds ∧ s.inputs.stop.rest.drawn = s.inputs.stop.drawn + 1) ∧
    (∀ d ds, s.inputs.tick.pending = d :: ds →
      s.tickInput = d ∧ s.inputs.tick.rest.pending = ds ∧ s.inputs.tick.rest.drawn = s.inputs.tick.drawn + 1) ∧
    (∀ d ds, s.inputs.rand.pending = d :: ds →
      s.nextRand = d ∧ s.inputs.rand.rest.pending = ds ∧ s.inputs.rand.rest.drawn = s.inputs.rand.drawn + 1) ∧
    (∀ d ds, s.inputs.poll.pending = d :: ds →
      s.nextPoll = d ∧ s.inputs.poll.rest.pending = ds ∧ s.inputs.poll.rest.drawn = s.inputs.poll.drawn + 1) ∧
    (∀ k (h : k < s.inputs.ioError.pending.length), s.ioDraw k = s.inputs.ioError.pending[k]) ∧
    (∀ k, (s.inputs.ioError.skip k).pending = s.inputs.ioError.pending.drop k ∧
      (s.inputs.ioError.skip k).drawn = s.inputs.ioError.drawn + k)

/-- What a cycle draws (R321): one `stop`; one failure for each Display or Keyboard call it makes; one `tick` and one poll when
it runs to its end; and at most one random byte. -/
def Obligations.EachCycleTakesItsDraws : Prop :=
  ∀ s t : State, step s = .next t →
    t.inputs.stop = s.inputs.stop.rest ∧
    t.inputs.ioError = s.inputs.ioError.skip (t.calls.countP PortCall.mayFail) ∧
    (t.status = .running → t.inputs.tick = s.inputs.tick.rest ∧ t.inputs.poll = s.inputs.poll.rest) ∧
    (t.inputs.rand = s.inputs.rand ∨ t.inputs.rand = s.inputs.rand.rest)
end

