-- ==== Sys2Proof/Laws/Memory.lean ====
section
/-! SUPPORT. The laws of memory: what a read gives after a write, and that every operation keeps the canonical form. -/

namespace Sys2Proof.Machine

/-! ### One byte -/

theorem Memory.wf_nil : Memory.wf [] := ⟨List.Pairwise.nil, by simp⟩

theorem Memory.read_of_lt_all (m : Memory) (a : Nat) (h : ∀ c ∈ m, a < c.1) : m.read a = unlistedByte := by
  induction m with
  | nil => rfl
  | cons c m ih =>
    have hc : a ≠ c.1 := Nat.ne_of_lt (h c (by simp))
    simpa [Memory.read, hc] using ih fun d hd => h d (by simp [hd])

theorem Memory.wf_tail {c : Host.Cell} {m : Memory} (h : Memory.wf (c :: m)) : Memory.wf m :=
  ⟨(List.pairwise_cons.mp h.1).2, fun d hd => h.2 d (by simp [hd])⟩

theorem Memory.wf_head_lt {c : Host.Cell} {m : Memory} (h : Memory.wf (c :: m)) : ∀ d ∈ m, c.1 < d.1 :=
  (List.pairwise_cons.mp h.1).1

/-- A write leaves every other address alone. -/
theorem Memory.read_write_of_ne (m : Memory) {a b : Nat} (v : Byte) (h : b ≠ a) : (m.write a v).read b = m.read b := by
  induction m with
  | nil => by_cases hv : v = unlistedByte <;> simp [Memory.write, Memory.read, hv, h]
  | cons c m ih =>
    obtain ⟨k, w⟩ := c
    simp only [Memory.write]
    split_ifs with h1 h2 h3 h4 <;> simp_all [Memory.read]

/-- A read after a write to the same address gives the value written. -/
theorem Memory.read_write_self {m : Memory} (hm : m.wf) (a : Nat) (v : Byte) : (m.write a v).read a = v := by
  induction m with
  | nil => by_cases hv : v = unlistedByte <;> simp [Memory.write, Memory.read, hv]
  | cons c m ih =>
    obtain ⟨k, w⟩ := c
    have hlt := Memory.wf_head_lt hm
    simp only [Memory.write]
    split_ifs with h1 h2 h3 h4
    · rw [h2]
      refine Memory.read_of_lt_all _ _ fun d hd => ?_
      rcases List.mem_cons.mp hd with rfl | hd
      · exact h1
      · exact Nat.lt_trans h1 (hlt d hd)
    · simp [Memory.read]
    · subst h3
      rw [h4]
      exact Memory.read_of_lt_all _ _ hlt
    · simp [Memory.read, h3]
    · simpa [Memory.read, h3] using ih (Memory.wf_tail hm)

theorem Memory.mem_write {m : Memory} {a : Nat} {v : Byte} {c : Host.Cell} (h : c ∈ m.write a v) :
    c ∈ m ∨ (c = (a, v) ∧ v ≠ unlistedByte) := by
  induction m with
  | nil => by_cases hv : v = unlistedByte <;> simp_all [Memory.write]
  | cons d m ih =>
    obtain ⟨k, w⟩ := d
    simp only [Memory.write] at h
    split_ifs at h with h1 h2 h3 h4
    · exact .inl h
    · rcases List.mem_cons.mp h with rfl | h
      · exact .inr ⟨rfl, h2⟩
      · exact .inl h
    · exact .inl (List.mem_cons_of_mem _ h)
    · rcases List.mem_cons.mp h with rfl | h
      · exact .inr ⟨rfl, h4⟩
      · exact .inl (List.mem_cons_of_mem _ h)
    · rcases List.mem_cons.mp h with rfl | h
      · exact .inl List.mem_cons_self
      · exact (ih h).imp_left (List.mem_cons_of_mem _)

/-- A write inside memory keeps the canonical form. -/
theorem Memory.write_wf {m : Memory} (hm : m.wf) {a : Nat} (ha : a < Config.memSize) (v : Byte) : (m.write a v).wf := by
  refine ⟨?_, fun c hc => ?_⟩
  · induction m with
    | nil => by_cases hv : v = unlistedByte <;> simp [Memory.write, hv]
    | cons d m ih =>
      obtain ⟨k, w⟩ := d
      have hlt := Memory.wf_head_lt hm
      have hp := (List.pairwise_cons.mp hm.1).2
      simp only [Memory.write]
      split_ifs with h1 h2 h3 h4
      · exact hm.1
      · refine List.pairwise_cons.mpr ⟨fun e he => ?_, hm.1⟩
        rcases List.mem_cons.mp he with rfl | he
        · exact h1
        · exact Nat.lt_trans h1 (hlt e he)
      · exact hp
      · exact List.pairwise_cons.mpr ⟨fun e he => h3 ▸ hlt e he, hp⟩
      · refine List.pairwise_cons.mpr ⟨fun e he => ?_, ih (Memory.wf_tail hm)⟩
        rcases Memory.mem_write he with he | ⟨rfl, -⟩
        · exact hlt e he
        · exact Nat.lt_of_le_of_ne (Nat.le_of_not_lt h1) (Ne.symm h3)
  · rcases Memory.mem_write hc with hc | ⟨rfl, hv⟩
    · exact hm.2 c hc
    · exact ⟨ha, hv⟩

/-! ### Several bytes -/

@[simp] theorem Memory.writeRange_nil (m : Memory) (a : Nat) : m.writeRange a [] = m := rfl

theorem Memory.writeRange_cons (m : Memory) (a : Nat) (b : Byte) (bs : List Byte) :
    m.writeRange a (b :: bs) = (m.write a b).writeRange (a + 1) bs := rfl

/-- Bytes written at a, a+1, … inside memory keep the canonical form. -/
theorem Memory.writeRange_wf {m : Memory} (hm : m.wf) {a : Nat} {bs : List Byte}
    (ha : a + bs.length ≤ Config.memSize) : (m.writeRange a bs).wf := by
  induction bs generalizing m a with
  | nil => exact hm
  | cons b bs ih =>
    rw [List.length_cons] at ha
    exact ih (Memory.write_wf hm (by omega) b) (by omega)

/-- Bytes written at a, a+1, … leave every address outside them alone. -/
theorem Memory.read_writeRange_outside (m : Memory) {a b : Nat} {bs : List Byte}
    (h : b < a ∨ a + bs.length ≤ b) : (m.writeRange a bs).read b = m.read b := by
  induction bs generalizing m a with
  | nil => rfl
  | cons c bs ih =>
    rw [List.length_cons] at h
    rw [Memory.writeRange_cons, ih _ (by omega), Memory.read_write_of_ne _ _ (by omega)]

/-- The k-th of the bytes written at a, a+1, … is what address a + k then reads as. -/
theorem Memory.read_writeRange_inside {m : Memory} (hm : m.wf) {a k : Nat} {bs : List Byte}
    (ha : a + bs.length ≤ Config.memSize) (hk : k < bs.length) : (m.writeRange a bs).read (a + k) = bs[k] := by
  induction bs generalizing m a k with
  | nil => simp at hk
  | cons b bs ih =>
    rw [List.length_cons] at ha hk
    rw [Memory.writeRange_cons]
    cases k with
    | zero =>
      rw [Memory.read_writeRange_outside _ (by omega)]
      exact Memory.read_write_self hm a b
    | succ k =>
      have := ih (m := m.write a b) (Memory.write_wf hm (by omega) b) (a := a + 1) (k := k) (by omega) (by omega)
      simpa [Nat.add_assoc, Nat.add_comm 1 k] using this

/-- The bytes of a range are the reads of its addresses (R12). -/
theorem Memory.readRange_length (m : Memory) (a n : Nat) : (m.readRange a n).length = n := by
  induction n generalizing a with
  | zero => rfl
  | succ n ih => simp [Memory.readRange, ih]

theorem Memory.readRange_getElem (m : Memory) (a n k : Nat) (h : k < (m.readRange a n).length) :
    (m.readRange a n)[k] = m.read (a + k) := by
  induction n generalizing a k with
  | zero => simp [Memory.readRange] at h
  | succ n ih =>
    cases k with
    | zero => rfl
    | succ k =>
      simp only [Memory.readRange, List.getElem_cons_succ]
      rw [ih]
      congr 1
      omega

end Sys2Proof.Machine
end

