-- ==== Sys2Proof/Laws/State.lean ====
section
/-! SUPPORT. One lemma per field per update of the state, each true by rfl, so that no proof unfolds a record update; and what a
register reads as after a register write. -/

namespace Sys2Proof.Machine

/-! ### setReg -/

@[simp] theorem State.setReg_v (s : State) (x : Reg) (b : Byte) : (s.setReg x b).v = s.v.set x.val b := rfl
@[simp] theorem State.setReg_i (s : State) (x : Reg) (b : Byte) : (s.setReg x b).i = s.i := rfl
@[simp] theorem State.setReg_pc (s : State) (x : Reg) (b : Byte) : (s.setReg x b).pc = s.pc := rfl
@[simp] theorem State.setReg_sp (s : State) (x : Reg) (b : Byte) : (s.setReg x b).sp = s.sp := rfl
@[simp] theorem State.setReg_stack (s : State) (x : Reg) (b : Byte) : (s.setReg x b).stack = s.stack := rfl
@[simp] theorem State.setReg_dt (s : State) (x : Reg) (b : Byte) : (s.setReg x b).dt = s.dt := rfl
@[simp] theorem State.setReg_st (s : State) (x : Reg) (b : Byte) : (s.setReg x b).st = s.st := rfl
@[simp] theorem State.setReg_mem (s : State) (x : Reg) (b : Byte) : (s.setReg x b).mem = s.mem := rfl
@[simp] theorem State.setReg_status (s : State) (x : Reg) (b : Byte) : (s.setReg x b).status = s.status := rfl
@[simp] theorem State.setReg_instrDue (s : State) (x : Reg) (b : Byte) : (s.setReg x b).instrDue = s.instrDue := rfl
@[simp] theorem State.setReg_timerDue (s : State) (x : Reg) (b : Byte) : (s.setReg x b).timerDue = s.timerDue := rfl
@[simp] theorem State.setReg_held (s : State) (x : Reg) (b : Byte) : (s.setReg x b).held = s.held := rfl
@[simp] theorem State.setReg_newKey (s : State) (x : Reg) (b : Byte) : (s.setReg x b).newKey = s.newKey := rfl
@[simp] theorem State.setReg_fb (s : State) (x : Reg) (b : Byte) : (s.setReg x b).fb = s.fb := rfl
@[simp] theorem State.setReg_screen (s : State) (x : Reg) (b : Byte) : (s.setReg x b).screen = s.screen := rfl
@[simp] theorem State.setReg_beeper (s : State) (x : Reg) (b : Byte) : (s.setReg x b).beeper = s.beeper := rfl
@[simp] theorem State.setReg_edgePolicy (s : State) (x : Reg) (b : Byte) : (s.setReg x b).edgePolicy = s.edgePolicy := rfl
@[simp] theorem State.setReg_inputs (s : State) (x : Reg) (b : Byte) : (s.setReg x b).inputs = s.inputs := rfl
@[simp] theorem State.setReg_calls (s : State) (x : Reg) (b : Byte) : (s.setReg x b).calls = s.calls := rfl

/-! ### setFlag -/

@[simp] theorem State.setFlag_v (s : State) (c : Bool) : (s.setFlag c).v = s.v.set 15 (if c then 1 else 0) := rfl
@[simp] theorem State.setFlag_i (s : State) (c : Bool) : (s.setFlag c).i = s.i :=
  State.setReg_i ..
@[simp] theorem State.setFlag_pc (s : State) (c : Bool) : (s.setFlag c).pc = s.pc :=
  State.setReg_pc ..
@[simp] theorem State.setFlag_sp (s : State) (c : Bool) : (s.setFlag c).sp = s.sp :=
  State.setReg_sp ..
@[simp] theorem State.setFlag_stack (s : State) (c : Bool) : (s.setFlag c).stack = s.stack :=
  State.setReg_stack ..
@[simp] theorem State.setFlag_dt (s : State) (c : Bool) : (s.setFlag c).dt = s.dt :=
  State.setReg_dt ..
@[simp] theorem State.setFlag_st (s : State) (c : Bool) : (s.setFlag c).st = s.st :=
  State.setReg_st ..
@[simp] theorem State.setFlag_mem (s : State) (c : Bool) : (s.setFlag c).mem = s.mem :=
  State.setReg_mem ..
@[simp] theorem State.setFlag_status (s : State) (c : Bool) : (s.setFlag c).status = s.status :=
  State.setReg_status ..
@[simp] theorem State.setFlag_instrDue (s : State) (c : Bool) : (s.setFlag c).instrDue = s.instrDue :=
  State.setReg_instrDue ..
@[simp] theorem State.setFlag_timerDue (s : State) (c : Bool) : (s.setFlag c).timerDue = s.timerDue :=
  State.setReg_timerDue ..
@[simp] theorem State.setFlag_held (s : State) (c : Bool) : (s.setFlag c).held = s.held :=
  State.setReg_held ..
@[simp] theorem State.setFlag_newKey (s : State) (c : Bool) : (s.setFlag c).newKey = s.newKey :=
  State.setReg_newKey ..
@[simp] theorem State.setFlag_fb (s : State) (c : Bool) : (s.setFlag c).fb = s.fb :=
  State.setReg_fb ..
@[simp] theorem State.setFlag_screen (s : State) (c : Bool) : (s.setFlag c).screen = s.screen :=
  State.setReg_screen ..
@[simp] theorem State.setFlag_beeper (s : State) (c : Bool) : (s.setFlag c).beeper = s.beeper :=
  State.setReg_beeper ..
@[simp] theorem State.setFlag_edgePolicy (s : State) (c : Bool) : (s.setFlag c).edgePolicy = s.edgePolicy :=
  State.setReg_edgePolicy ..
@[simp] theorem State.setFlag_inputs (s : State) (c : Bool) : (s.setFlag c).inputs = s.inputs :=
  State.setReg_inputs ..
@[simp] theorem State.setFlag_calls (s : State) (c : Bool) : (s.setFlag c).calls = s.calls :=
  State.setReg_calls ..

/-! ### setPc -/

@[simp] theorem State.setPc_v (s : State) (p : Word) : (s.setPc p).v = s.v := rfl
@[simp] theorem State.setPc_i (s : State) (p : Word) : (s.setPc p).i = s.i := rfl
@[simp] theorem State.setPc_pc (s : State) (p : Word) : (s.setPc p).pc = p := rfl
@[simp] theorem State.setPc_sp (s : State) (p : Word) : (s.setPc p).sp = s.sp := rfl
@[simp] theorem State.setPc_stack (s : State) (p : Word) : (s.setPc p).stack = s.stack := rfl
@[simp] theorem State.setPc_dt (s : State) (p : Word) : (s.setPc p).dt = s.dt := rfl
@[simp] theorem State.setPc_st (s : State) (p : Word) : (s.setPc p).st = s.st := rfl
@[simp] theorem State.setPc_mem (s : State) (p : Word) : (s.setPc p).mem = s.mem := rfl
@[simp] theorem State.setPc_status (s : State) (p : Word) : (s.setPc p).status = s.status := rfl
@[simp] theorem State.setPc_instrDue (s : State) (p : Word) : (s.setPc p).instrDue = s.instrDue := rfl
@[simp] theorem State.setPc_timerDue (s : State) (p : Word) : (s.setPc p).timerDue = s.timerDue := rfl
@[simp] theorem State.setPc_held (s : State) (p : Word) : (s.setPc p).held = s.held := rfl
@[simp] theorem State.setPc_newKey (s : State) (p : Word) : (s.setPc p).newKey = s.newKey := rfl
@[simp] theorem State.setPc_fb (s : State) (p : Word) : (s.setPc p).fb = s.fb := rfl
@[simp] theorem State.setPc_screen (s : State) (p : Word) : (s.setPc p).screen = s.screen := rfl
@[simp] theorem State.setPc_beeper (s : State) (p : Word) : (s.setPc p).beeper = s.beeper := rfl
@[simp] theorem State.setPc_edgePolicy (s : State) (p : Word) : (s.setPc p).edgePolicy = s.edgePolicy := rfl
@[simp] theorem State.setPc_inputs (s : State) (p : Word) : (s.setPc p).inputs = s.inputs := rfl
@[simp] theorem State.setPc_calls (s : State) (p : Word) : (s.setPc p).calls = s.calls := rfl

/-! ### advance -/

@[simp] theorem State.advance_v (s : State) : s.advance.v = s.v := rfl
@[simp] theorem State.advance_i (s : State) : s.advance.i = s.i := rfl
@[simp] theorem State.advance_pc (s : State) : s.advance.pc = s.pc + 2 := rfl
@[simp] theorem State.advance_sp (s : State) : s.advance.sp = s.sp := rfl
@[simp] theorem State.advance_stack (s : State) : s.advance.stack = s.stack := rfl
@[simp] theorem State.advance_dt (s : State) : s.advance.dt = s.dt := rfl
@[simp] theorem State.advance_st (s : State) : s.advance.st = s.st := rfl
@[simp] theorem State.advance_mem (s : State) : s.advance.mem = s.mem := rfl
@[simp] theorem State.advance_status (s : State) : s.advance.status = s.status := rfl
@[simp] theorem State.advance_instrDue (s : State) : s.advance.instrDue = s.instrDue := rfl
@[simp] theorem State.advance_timerDue (s : State) : s.advance.timerDue = s.timerDue := rfl
@[simp] theorem State.advance_held (s : State) : s.advance.held = s.held := rfl
@[simp] theorem State.advance_newKey (s : State) : s.advance.newKey = s.newKey := rfl
@[simp] theorem State.advance_fb (s : State) : s.advance.fb = s.fb := rfl
@[simp] theorem State.advance_screen (s : State) : s.advance.screen = s.screen := rfl
@[simp] theorem State.advance_beeper (s : State) : s.advance.beeper = s.beeper := rfl
@[simp] theorem State.advance_edgePolicy (s : State) : s.advance.edgePolicy = s.edgePolicy := rfl
@[simp] theorem State.advance_inputs (s : State) : s.advance.inputs = s.inputs := rfl
@[simp] theorem State.advance_calls (s : State) : s.advance.calls = s.calls := rfl

/-! ### setI -/

@[simp] theorem State.setI_v (s : State) (w : Word) : (s.setI w).v = s.v := rfl
@[simp] theorem State.setI_i (s : State) (w : Word) : (s.setI w).i = w := rfl
@[simp] theorem State.setI_pc (s : State) (w : Word) : (s.setI w).pc = s.pc := rfl
@[simp] theorem State.setI_sp (s : State) (w : Word) : (s.setI w).sp = s.sp := rfl
@[simp] theorem State.setI_stack (s : State) (w : Word) : (s.setI w).stack = s.stack := rfl
@[simp] theorem State.setI_dt (s : State) (w : Word) : (s.setI w).dt = s.dt := rfl
@[simp] theorem State.setI_st (s : State) (w : Word) : (s.setI w).st = s.st := rfl
@[simp] theorem State.setI_mem (s : State) (w : Word) : (s.setI w).mem = s.mem := rfl
@[simp] theorem State.setI_status (s : State) (w : Word) : (s.setI w).status = s.status := rfl
@[simp] theorem State.setI_instrDue (s : State) (w : Word) : (s.setI w).instrDue = s.instrDue := rfl
@[simp] theorem State.setI_timerDue (s : State) (w : Word) : (s.setI w).timerDue = s.timerDue := rfl
@[simp] theorem State.setI_held (s : State) (w : Word) : (s.setI w).held = s.held := rfl
@[simp] theorem State.setI_newKey (s : State) (w : Word) : (s.setI w).newKey = s.newKey := rfl
@[simp] theorem State.setI_fb (s : State) (w : Word) : (s.setI w).fb = s.fb := rfl
@[simp] theorem State.setI_screen (s : State) (w : Word) : (s.setI w).screen = s.screen := rfl
@[simp] theorem State.setI_beeper (s : State) (w : Word) : (s.setI w).beeper = s.beeper := rfl
@[simp] theorem State.setI_edgePolicy (s : State) (w : Word) : (s.setI w).edgePolicy = s.edgePolicy := rfl
@[simp] theorem State.setI_inputs (s : State) (w : Word) : (s.setI w).inputs = s.inputs := rfl
@[simp] theorem State.setI_calls (s : State) (w : Word) : (s.setI w).calls = s.calls := rfl

/-! ### setDt -/

@[simp] theorem State.setDt_v (s : State) (b : Byte) : (s.setDt b).v = s.v := rfl
@[simp] theorem State.setDt_i (s : State) (b : Byte) : (s.setDt b).i = s.i := rfl
@[simp] theorem State.setDt_pc (s : State) (b : Byte) : (s.setDt b).pc = s.pc := rfl
@[simp] theorem State.setDt_sp (s : State) (b : Byte) : (s.setDt b).sp = s.sp := rfl
@[simp] theorem State.setDt_stack (s : State) (b : Byte) : (s.setDt b).stack = s.stack := rfl
@[simp] theorem State.setDt_dt (s : State) (b : Byte) : (s.setDt b).dt = b := rfl
@[simp] theorem State.setDt_st (s : State) (b : Byte) : (s.setDt b).st = s.st := rfl
@[simp] theorem State.setDt_mem (s : State) (b : Byte) : (s.setDt b).mem = s.mem := rfl
@[simp] theorem State.setDt_status (s : State) (b : Byte) : (s.setDt b).status = s.status := rfl
@[simp] theorem State.setDt_instrDue (s : State) (b : Byte) : (s.setDt b).instrDue = s.instrDue := rfl
@[simp] theorem State.setDt_timerDue (s : State) (b : Byte) : (s.setDt b).timerDue = s.timerDue := rfl
@[simp] theorem State.setDt_held (s : State) (b : Byte) : (s.setDt b).held = s.held := rfl
@[simp] theorem State.setDt_newKey (s : State) (b : Byte) : (s.setDt b).newKey = s.newKey := rfl
@[simp] theorem State.setDt_fb (s : State) (b : Byte) : (s.setDt b).fb = s.fb := rfl
@[simp] theorem State.setDt_screen (s : State) (b : Byte) : (s.setDt b).screen = s.screen := rfl
@[simp] theorem State.setDt_beeper (s : State) (b : Byte) : (s.setDt b).beeper = s.beeper := rfl
@[simp] theorem State.setDt_edgePolicy (s : State) (b : Byte) : (s.setDt b).edgePolicy = s.edgePolicy := rfl
@[simp] theorem State.setDt_inputs (s : State) (b : Byte) : (s.setDt b).inputs = s.inputs := rfl
@[simp] theorem State.setDt_calls (s : State) (b : Byte) : (s.setDt b).calls = s.calls := rfl

/-! ### setSt -/

@[simp] theorem State.setSt_v (s : State) (b : Byte) : (s.setSt b).v = s.v := rfl
@[simp] theorem State.setSt_i (s : State) (b : Byte) : (s.setSt b).i = s.i := rfl
@[simp] theorem State.setSt_pc (s : State) (b : Byte) : (s.setSt b).pc = s.pc := rfl
@[simp] theorem State.setSt_sp (s : State) (b : Byte) : (s.setSt b).sp = s.sp := rfl
@[simp] theorem State.setSt_stack (s : State) (b : Byte) : (s.setSt b).stack = s.stack := rfl
@[simp] theorem State.setSt_dt (s : State) (b : Byte) : (s.setSt b).dt = s.dt := rfl
@[simp] theorem State.setSt_st (s : State) (b : Byte) : (s.setSt b).st = b := rfl
@[simp] theorem State.setSt_mem (s : State) (b : Byte) : (s.setSt b).mem = s.mem := rfl
@[simp] theorem State.setSt_status (s : State) (b : Byte) : (s.setSt b).status = s.status := rfl
@[simp] theorem State.setSt_instrDue (s : State) (b : Byte) : (s.setSt b).instrDue = s.instrDue := rfl
@[simp] theorem State.setSt_timerDue (s : State) (b : Byte) : (s.setSt b).timerDue = s.timerDue := rfl
@[simp] theorem State.setSt_held (s : State) (b : Byte) : (s.setSt b).held = s.held := rfl
@[simp] theorem State.setSt_newKey (s : State) (b : Byte) : (s.setSt b).newKey = s.newKey := rfl
@[simp] theorem State.setSt_fb (s : State) (b : Byte) : (s.setSt b).fb = s.fb := rfl
@[simp] theorem State.setSt_screen (s : State) (b : Byte) : (s.setSt b).screen = s.screen := rfl
@[simp] theorem State.setSt_beeper (s : State) (b : Byte) : (s.setSt b).beeper = s.beeper := rfl
@[simp] theorem State.setSt_edgePolicy (s : State) (b : Byte) : (s.setSt b).edgePolicy = s.edgePolicy := rfl
@[simp] theorem State.setSt_inputs (s : State) (b : Byte) : (s.setSt b).inputs = s.inputs := rfl
@[simp] theorem State.setSt_calls (s : State) (b : Byte) : (s.setSt b).calls = s.calls := rfl

/-! ### setMem -/

@[simp] theorem State.setMem_v (s : State) (m : Memory) : (s.setMem m).v = s.v := rfl
@[simp] theorem State.setMem_i (s : State) (m : Memory) : (s.setMem m).i = s.i := rfl
@[simp] theorem State.setMem_pc (s : State) (m : Memory) : (s.setMem m).pc = s.pc := rfl
@[simp] theorem State.setMem_sp (s : State) (m : Memory) : (s.setMem m).sp = s.sp := rfl
@[simp] theorem State.setMem_stack (s : State) (m : Memory) : (s.setMem m).stack = s.stack := rfl
@[simp] theorem State.setMem_dt (s : State) (m : Memory) : (s.setMem m).dt = s.dt := rfl
@[simp] theorem State.setMem_st (s : State) (m : Memory) : (s.setMem m).st = s.st := rfl
@[simp] theorem State.setMem_mem (s : State) (m : Memory) : (s.setMem m).mem = m := rfl
@[simp] theorem State.setMem_status (s : State) (m : Memory) : (s.setMem m).status = s.status := rfl
@[simp] theorem State.setMem_instrDue (s : State) (m : Memory) : (s.setMem m).instrDue = s.instrDue := rfl
@[simp] theorem State.setMem_timerDue (s : State) (m : Memory) : (s.setMem m).timerDue = s.timerDue := rfl
@[simp] theorem State.setMem_held (s : State) (m : Memory) : (s.setMem m).held = s.held := rfl
@[simp] theorem State.setMem_newKey (s : State) (m : Memory) : (s.setMem m).newKey = s.newKey := rfl
@[simp] theorem State.setMem_fb (s : State) (m : Memory) : (s.setMem m).fb = s.fb := rfl
@[simp] theorem State.setMem_screen (s : State) (m : Memory) : (s.setMem m).screen = s.screen := rfl
@[simp] theorem State.setMem_beeper (s : State) (m : Memory) : (s.setMem m).beeper = s.beeper := rfl
@[simp] theorem State.setMem_edgePolicy (s : State) (m : Memory) : (s.setMem m).edgePolicy = s.edgePolicy := rfl
@[simp] theorem State.setMem_inputs (s : State) (m : Memory) : (s.setMem m).inputs = s.inputs := rfl
@[simp] theorem State.setMem_calls (s : State) (m : Memory) : (s.setMem m).calls = s.calls := rfl

/-! ### setFb -/

@[simp] theorem State.setFb_v (s : State) (fb : Framebuffer) : (s.setFb fb).v = s.v := rfl
@[simp] theorem State.setFb_i (s : State) (fb : Framebuffer) : (s.setFb fb).i = s.i := rfl
@[simp] theorem State.setFb_pc (s : State) (fb : Framebuffer) : (s.setFb fb).pc = s.pc := rfl
@[simp] theorem State.setFb_sp (s : State) (fb : Framebuffer) : (s.setFb fb).sp = s.sp := rfl
@[simp] theorem State.setFb_stack (s : State) (fb : Framebuffer) : (s.setFb fb).stack = s.stack := rfl
@[simp] theorem State.setFb_dt (s : State) (fb : Framebuffer) : (s.setFb fb).dt = s.dt := rfl
@[simp] theorem State.setFb_st (s : State) (fb : Framebuffer) : (s.setFb fb).st = s.st := rfl
@[simp] theorem State.setFb_mem (s : State) (fb : Framebuffer) : (s.setFb fb).mem = s.mem := rfl
@[simp] theorem State.setFb_status (s : State) (fb : Framebuffer) : (s.setFb fb).status = s.status := rfl
@[simp] theorem State.setFb_instrDue (s : State) (fb : Framebuffer) : (s.setFb fb).instrDue = s.instrDue := rfl
@[simp] theorem State.setFb_timerDue (s : State) (fb : Framebuffer) : (s.setFb fb).timerDue = s.timerDue := rfl
@[simp] theorem State.setFb_held (s : State) (fb : Framebuffer) : (s.setFb fb).held = s.held := rfl
@[simp] theorem State.setFb_newKey (s : State) (fb : Framebuffer) : (s.setFb fb).newKey = s.newKey := rfl
@[simp] theorem State.setFb_fb (s : State) (fb : Framebuffer) : (s.setFb fb).fb = fb := rfl
@[simp] theorem State.setFb_screen (s : State) (fb : Framebuffer) : (s.setFb fb).screen = s.screen := rfl
@[simp] theorem State.setFb_beeper (s : State) (fb : Framebuffer) : (s.setFb fb).beeper = s.beeper := rfl
@[simp] theorem State.setFb_edgePolicy (s : State) (fb : Framebuffer) : (s.setFb fb).edgePolicy = s.edgePolicy := rfl
@[simp] theorem State.setFb_inputs (s : State) (fb : Framebuffer) : (s.setFb fb).inputs = s.inputs := rfl
@[simp] theorem State.setFb_calls (s : State) (fb : Framebuffer) : (s.setFb fb).calls = s.calls := rfl

/-! ### raise -/

@[simp] theorem State.raise_v (s : State) (ia : Word) (k : FaultKind) : (s.raise ia k).v = s.v := rfl
@[simp] theorem State.raise_i (s : State) (ia : Word) (k : FaultKind) : (s.raise ia k).i = s.i := rfl
@[simp] theorem State.raise_pc (s : State) (ia : Word) (k : FaultKind) : (s.raise ia k).pc = s.pc := rfl
@[simp] theorem State.raise_sp (s : State) (ia : Word) (k : FaultKind) : (s.raise ia k).sp = s.sp := rfl
@[simp] theorem State.raise_stack (s : State) (ia : Word) (k : FaultKind) : (s.raise ia k).stack = s.stack := rfl
@[simp] theorem State.raise_dt (s : State) (ia : Word) (k : FaultKind) : (s.raise ia k).dt = s.dt := rfl
@[simp] theorem State.raise_st (s : State) (ia : Word) (k : FaultKind) : (s.raise ia k).st = s.st := rfl
@[simp] theorem State.raise_mem (s : State) (ia : Word) (k : FaultKind) : (s.raise ia k).mem = s.mem := rfl
@[simp] theorem State.raise_status (s : State) (ia : Word) (k : FaultKind) : (s.raise ia k).status = .faulted ⟨k, ia⟩ := rfl
@[simp] theorem State.raise_instrDue (s : State) (ia : Word) (k : FaultKind) : (s.raise ia k).instrDue = s.instrDue := rfl
@[simp] theorem State.raise_timerDue (s : State) (ia : Word) (k : FaultKind) : (s.raise ia k).timerDue = s.timerDue := rfl
@[simp] theorem State.raise_held (s : State) (ia : Word) (k : FaultKind) : (s.raise ia k).held = s.held := rfl
@[simp] theorem State.raise_newKey (s : State) (ia : Word) (k : FaultKind) : (s.raise ia k).newKey = s.newKey := rfl
@[simp] theorem State.raise_fb (s : State) (ia : Word) (k : FaultKind) : (s.raise ia k).fb = s.fb := rfl
@[simp] theorem State.raise_screen (s : State) (ia : Word) (k : FaultKind) : (s.raise ia k).screen = s.screen := rfl
@[simp] theorem State.raise_beeper (s : State) (ia : Word) (k : FaultKind) : (s.raise ia k).beeper = s.beeper := rfl
@[simp] theorem State.raise_edgePolicy (s : State) (ia : Word) (k : FaultKind) : (s.raise ia k).edgePolicy = s.edgePolicy := rfl
@[simp] theorem State.raise_inputs (s : State) (ia : Word) (k : FaultKind) : (s.raise ia k).inputs = s.inputs := rfl
@[simp] theorem State.raise_calls (s : State) (ia : Word) (k : FaultKind) : (s.raise ia k).calls = s.calls := rfl

/-! ### call -/

@[simp] theorem State.call_v (s : State) (c : PortCall) : (s.call c).v = s.v := rfl
@[simp] theorem State.call_i (s : State) (c : PortCall) : (s.call c).i = s.i := rfl
@[simp] theorem State.call_pc (s : State) (c : PortCall) : (s.call c).pc = s.pc := rfl
@[simp] theorem State.call_sp (s : State) (c : PortCall) : (s.call c).sp = s.sp := rfl
@[simp] theorem State.call_stack (s : State) (c : PortCall) : (s.call c).stack = s.stack := rfl
@[simp] theorem State.call_dt (s : State) (c : PortCall) : (s.call c).dt = s.dt := rfl
@[simp] theorem State.call_st (s : State) (c : PortCall) : (s.call c).st = s.st := rfl
@[simp] theorem State.call_mem (s : State) (c : PortCall) : (s.call c).mem = s.mem := rfl
@[simp] theorem State.call_status (s : State) (c : PortCall) : (s.call c).status = s.status := rfl
@[simp] theorem State.call_instrDue (s : State) (c : PortCall) : (s.call c).instrDue = s.instrDue := rfl
@[simp] theorem State.call_timerDue (s : State) (c : PortCall) : (s.call c).timerDue = s.timerDue := rfl
@[simp] theorem State.call_held (s : State) (c : PortCall) : (s.call c).held = s.held := rfl
@[simp] theorem State.call_newKey (s : State) (c : PortCall) : (s.call c).newKey = s.newKey := rfl
@[simp] theorem State.call_fb (s : State) (c : PortCall) : (s.call c).fb = s.fb := rfl
@[simp] theorem State.call_screen (s : State) (c : PortCall) : (s.call c).screen = s.screen := rfl
@[simp] theorem State.call_beeper (s : State) (c : PortCall) : (s.call c).beeper = s.beeper := rfl
@[simp] theorem State.call_edgePolicy (s : State) (c : PortCall) : (s.call c).edgePolicy = s.edgePolicy := rfl
@[simp] theorem State.call_inputs (s : State) (c : PortCall) : (s.call c).inputs = s.inputs := rfl
@[simp] theorem State.call_calls (s : State) (c : PortCall) : (s.call c).calls = s.calls ++ [c] := rfl

/-! ### callIo -/

@[simp] theorem State.callIo_v (s : State) (c : PortCall) : (s.callIo c).2.v = s.v := rfl
@[simp] theorem State.callIo_i (s : State) (c : PortCall) : (s.callIo c).2.i = s.i := rfl
@[simp] theorem State.callIo_pc (s : State) (c : PortCall) : (s.callIo c).2.pc = s.pc := rfl
@[simp] theorem State.callIo_sp (s : State) (c : PortCall) : (s.callIo c).2.sp = s.sp := rfl
@[simp] theorem State.callIo_stack (s : State) (c : PortCall) : (s.callIo c).2.stack = s.stack := rfl
@[simp] theorem State.callIo_dt (s : State) (c : PortCall) : (s.callIo c).2.dt = s.dt := rfl
@[simp] theorem State.callIo_st (s : State) (c : PortCall) : (s.callIo c).2.st = s.st := rfl
@[simp] theorem State.callIo_mem (s : State) (c : PortCall) : (s.callIo c).2.mem = s.mem := rfl
@[simp] theorem State.callIo_status (s : State) (c : PortCall) : (s.callIo c).2.status = s.status := rfl
@[simp] theorem State.callIo_instrDue (s : State) (c : PortCall) : (s.callIo c).2.instrDue = s.instrDue := rfl
@[simp] theorem State.callIo_timerDue (s : State) (c : PortCall) : (s.callIo c).2.timerDue = s.timerDue := rfl
@[simp] theorem State.callIo_held (s : State) (c : PortCall) : (s.callIo c).2.held = s.held := rfl
@[simp] theorem State.callIo_newKey (s : State) (c : PortCall) : (s.callIo c).2.newKey = s.newKey := rfl
@[simp] theorem State.callIo_fb (s : State) (c : PortCall) : (s.callIo c).2.fb = s.fb := rfl
@[simp] theorem State.callIo_screen (s : State) (c : PortCall) : (s.callIo c).2.screen = s.screen := rfl
@[simp] theorem State.callIo_beeper (s : State) (c : PortCall) : (s.callIo c).2.beeper = s.beeper := rfl
@[simp] theorem State.callIo_edgePolicy (s : State) (c : PortCall) : (s.callIo c).2.edgePolicy = s.edgePolicy := rfl
@[simp] theorem State.callIo_inputs (s : State) (c : PortCall) : (s.callIo c).2.inputs = { s.inputs with ioError := s.inputs.ioError.rest } := rfl
@[simp] theorem State.callIo_calls (s : State) (c : PortCall) : (s.callIo c).2.calls = s.calls ++ [c] := rfl

/-! ### takeStop -/

@[simp] theorem State.takeStop_v (s : State) : s.takeStop.2.v = s.v := rfl
@[simp] theorem State.takeStop_i (s : State) : s.takeStop.2.i = s.i := rfl
@[simp] theorem State.takeStop_pc (s : State) : s.takeStop.2.pc = s.pc := rfl
@[simp] theorem State.takeStop_sp (s : State) : s.takeStop.2.sp = s.sp := rfl
@[simp] theorem State.takeStop_stack (s : State) : s.takeStop.2.stack = s.stack := rfl
@[simp] theorem State.takeStop_dt (s : State) : s.takeStop.2.dt = s.dt := rfl
@[simp] theorem State.takeStop_st (s : State) : s.takeStop.2.st = s.st := rfl
@[simp] theorem State.takeStop_mem (s : State) : s.takeStop.2.mem = s.mem := rfl
@[simp] theorem State.takeStop_status (s : State) : s.takeStop.2.status = s.status := rfl
@[simp] theorem State.takeStop_instrDue (s : State) : s.takeStop.2.instrDue = s.instrDue := rfl
@[simp] theorem State.takeStop_timerDue (s : State) : s.takeStop.2.timerDue = s.timerDue := rfl
@[simp] theorem State.takeStop_held (s : State) : s.takeStop.2.held = s.held := rfl
@[simp] theorem State.takeStop_newKey (s : State) : s.takeStop.2.newKey = s.newKey := rfl
@[simp] theorem State.takeStop_fb (s : State) : s.takeStop.2.fb = s.fb := rfl
@[simp] theorem State.takeStop_screen (s : State) : s.takeStop.2.screen = s.screen := rfl
@[simp] theorem State.takeStop_beeper (s : State) : s.takeStop.2.beeper = s.beeper := rfl
@[simp] theorem State.takeStop_edgePolicy (s : State) : s.takeStop.2.edgePolicy = s.edgePolicy := rfl
@[simp] theorem State.takeStop_inputs (s : State) : s.takeStop.2.inputs = { s.inputs with stop := s.inputs.stop.rest } := rfl
@[simp] theorem State.takeStop_calls (s : State) : s.takeStop.2.calls = s.calls := rfl

/-! ### takeTick -/

@[simp] theorem State.takeTick_v (s : State) : s.takeTick.2.v = s.v := rfl
@[simp] theorem State.takeTick_i (s : State) : s.takeTick.2.i = s.i := rfl
@[simp] theorem State.takeTick_pc (s : State) : s.takeTick.2.pc = s.pc := rfl
@[simp] theorem State.takeTick_sp (s : State) : s.takeTick.2.sp = s.sp := rfl
@[simp] theorem State.takeTick_stack (s : State) : s.takeTick.2.stack = s.stack := rfl
@[simp] theorem State.takeTick_dt (s : State) : s.takeTick.2.dt = s.dt := rfl
@[simp] theorem State.takeTick_st (s : State) : s.takeTick.2.st = s.st := rfl
@[simp] theorem State.takeTick_mem (s : State) : s.takeTick.2.mem = s.mem := rfl
@[simp] theorem State.takeTick_status (s : State) : s.takeTick.2.status = s.status := rfl
@[simp] theorem State.takeTick_instrDue (s : State) : s.takeTick.2.instrDue = s.instrDue := rfl
@[simp] theorem State.takeTick_timerDue (s : State) : s.takeTick.2.timerDue = s.timerDue := rfl
@[simp] theorem State.takeTick_held (s : State) : s.takeTick.2.held = s.held := rfl
@[simp] theorem State.takeTick_newKey (s : State) : s.takeTick.2.newKey = s.newKey := rfl
@[simp] theorem State.takeTick_fb (s : State) : s.takeTick.2.fb = s.fb := rfl
@[simp] theorem State.takeTick_screen (s : State) : s.takeTick.2.screen = s.screen := rfl
@[simp] theorem State.takeTick_beeper (s : State) : s.takeTick.2.beeper = s.beeper := rfl
@[simp] theorem State.takeTick_edgePolicy (s : State) : s.takeTick.2.edgePolicy = s.edgePolicy := rfl
@[simp] theorem State.takeTick_inputs (s : State) : s.takeTick.2.inputs = { s.inputs with tick := s.inputs.tick.rest } := rfl
@[simp] theorem State.takeTick_calls (s : State) : s.takeTick.2.calls = s.calls := rfl

/-! ### takeRand -/

@[simp] theorem State.takeRand_v (s : State) : s.takeRand.2.v = s.v := rfl
@[simp] theorem State.takeRand_i (s : State) : s.takeRand.2.i = s.i := rfl
@[simp] theorem State.takeRand_pc (s : State) : s.takeRand.2.pc = s.pc := rfl
@[simp] theorem State.takeRand_sp (s : State) : s.takeRand.2.sp = s.sp := rfl
@[simp] theorem State.takeRand_stack (s : State) : s.takeRand.2.stack = s.stack := rfl
@[simp] theorem State.takeRand_dt (s : State) : s.takeRand.2.dt = s.dt := rfl
@[simp] theorem State.takeRand_st (s : State) : s.takeRand.2.st = s.st := rfl
@[simp] theorem State.takeRand_mem (s : State) : s.takeRand.2.mem = s.mem := rfl
@[simp] theorem State.takeRand_status (s : State) : s.takeRand.2.status = s.status := rfl
@[simp] theorem State.takeRand_instrDue (s : State) : s.takeRand.2.instrDue = s.instrDue := rfl
@[simp] theorem State.takeRand_timerDue (s : State) : s.takeRand.2.timerDue = s.timerDue := rfl
@[simp] theorem State.takeRand_held (s : State) : s.takeRand.2.held = s.held := rfl
@[simp] theorem State.takeRand_newKey (s : State) : s.takeRand.2.newKey = s.newKey := rfl
@[simp] theorem State.takeRand_fb (s : State) : s.takeRand.2.fb = s.fb := rfl
@[simp] theorem State.takeRand_screen (s : State) : s.takeRand.2.screen = s.screen := rfl
@[simp] theorem State.takeRand_beeper (s : State) : s.takeRand.2.beeper = s.beeper := rfl
@[simp] theorem State.takeRand_edgePolicy (s : State) : s.takeRand.2.edgePolicy = s.edgePolicy := rfl
@[simp] theorem State.takeRand_inputs (s : State) : s.takeRand.2.inputs = { s.inputs with rand := s.inputs.rand.rest } := rfl
@[simp] theorem State.takeRand_calls (s : State) : s.takeRand.2.calls = s.calls := rfl

/-! ### takePoll -/

@[simp] theorem State.takePoll_v (s : State) : s.takePoll.2.v = s.v := rfl
@[simp] theorem State.takePoll_i (s : State) : s.takePoll.2.i = s.i := rfl
@[simp] theorem State.takePoll_pc (s : State) : s.takePoll.2.pc = s.pc := rfl
@[simp] theorem State.takePoll_sp (s : State) : s.takePoll.2.sp = s.sp := rfl
@[simp] theorem State.takePoll_stack (s : State) : s.takePoll.2.stack = s.stack := rfl
@[simp] theorem State.takePoll_dt (s : State) : s.takePoll.2.dt = s.dt := rfl
@[simp] theorem State.takePoll_st (s : State) : s.takePoll.2.st = s.st := rfl
@[simp] theorem State.takePoll_mem (s : State) : s.takePoll.2.mem = s.mem := rfl
@[simp] theorem State.takePoll_status (s : State) : s.takePoll.2.status = s.status := rfl
@[simp] theorem State.takePoll_instrDue (s : State) : s.takePoll.2.instrDue = s.instrDue := rfl
@[simp] theorem State.takePoll_timerDue (s : State) : s.takePoll.2.timerDue = s.timerDue := rfl
@[simp] theorem State.takePoll_held (s : State) : s.takePoll.2.held = s.held := rfl
@[simp] theorem State.takePoll_newKey (s : State) : s.takePoll.2.newKey = s.newKey := rfl
@[simp] theorem State.takePoll_fb (s : State) : s.takePoll.2.fb = s.fb := rfl
@[simp] theorem State.takePoll_screen (s : State) : s.takePoll.2.screen = s.screen := rfl
@[simp] theorem State.takePoll_beeper (s : State) : s.takePoll.2.beeper = s.beeper := rfl
@[simp] theorem State.takePoll_edgePolicy (s : State) : s.takePoll.2.edgePolicy = s.edgePolicy := rfl
@[simp] theorem State.takePoll_inputs (s : State) : s.takePoll.2.inputs = { s.inputs with poll := s.inputs.poll.rest } := rfl
@[simp] theorem State.takePoll_calls (s : State) : s.takePoll.2.calls = s.calls := rfl

/-! ### takeNewKey -/

@[simp] theorem State.takeNewKey_v (s : State) : s.takeNewKey.2.v = s.v := rfl
@[simp] theorem State.takeNewKey_i (s : State) : s.takeNewKey.2.i = s.i := rfl
@[simp] theorem State.takeNewKey_pc (s : State) : s.takeNewKey.2.pc = s.pc := rfl
@[simp] theorem State.takeNewKey_sp (s : State) : s.takeNewKey.2.sp = s.sp := rfl
@[simp] theorem State.takeNewKey_stack (s : State) : s.takeNewKey.2.stack = s.stack := rfl
@[simp] theorem State.takeNewKey_dt (s : State) : s.takeNewKey.2.dt = s.dt := rfl
@[simp] theorem State.takeNewKey_st (s : State) : s.takeNewKey.2.st = s.st := rfl
@[simp] theorem State.takeNewKey_mem (s : State) : s.takeNewKey.2.mem = s.mem := rfl
@[simp] theorem State.takeNewKey_status (s : State) : s.takeNewKey.2.status = s.status := rfl
@[simp] theorem State.takeNewKey_instrDue (s : State) : s.takeNewKey.2.instrDue = s.instrDue := rfl
@[simp] theorem State.takeNewKey_timerDue (s : State) : s.takeNewKey.2.timerDue = s.timerDue := rfl
@[simp] theorem State.takeNewKey_held (s : State) : s.takeNewKey.2.held = s.held := rfl
@[simp] theorem State.takeNewKey_newKey (s : State) : s.takeNewKey.2.newKey = none := rfl
@[simp] theorem State.takeNewKey_fb (s : State) : s.takeNewKey.2.fb = s.fb := rfl
@[simp] theorem State.takeNewKey_screen (s : State) : s.takeNewKey.2.screen = s.screen := rfl
@[simp] theorem State.takeNewKey_beeper (s : State) : s.takeNewKey.2.beeper = s.beeper := rfl
@[simp] theorem State.takeNewKey_edgePolicy (s : State) : s.takeNewKey.2.edgePolicy = s.edgePolicy := rfl
@[simp] theorem State.takeNewKey_inputs (s : State) : s.takeNewKey.2.inputs = s.inputs := rfl
@[simp] theorem State.takeNewKey_calls (s : State) : s.takeNewKey.2.calls = s.calls := rfl

/-! ### loadRegs -/

@[simp] theorem State.loadRegs_v (s : State) (x : Reg) : (s.loadRegs x).v = Vector.ofFn fun r => if r ≤ x then s.mem.read (s.dataAddr r.val) else s.reg r := rfl
@[simp] theorem State.loadRegs_i (s : State) (x : Reg) : (s.loadRegs x).i = s.i := by
  simp only [State.loadRegs]
@[simp] theorem State.loadRegs_pc (s : State) (x : Reg) : (s.loadRegs x).pc = s.pc := by
  simp only [State.loadRegs]
@[simp] theorem State.loadRegs_sp (s : State) (x : Reg) : (s.loadRegs x).sp = s.sp := by
  simp only [State.loadRegs]
@[simp] theorem State.loadRegs_stack (s : State) (x : Reg) : (s.loadRegs x).stack = s.stack := by
  simp only [State.loadRegs]
@[simp] theorem State.loadRegs_dt (s : State) (x : Reg) : (s.loadRegs x).dt = s.dt := by
  simp only [State.loadRegs]
@[simp] theorem State.loadRegs_st (s : State) (x : Reg) : (s.loadRegs x).st = s.st := by
  simp only [State.loadRegs]
@[simp] theorem State.loadRegs_mem (s : State) (x : Reg) : (s.loadRegs x).mem = s.mem := by
  simp only [State.loadRegs]
@[simp] theorem State.loadRegs_status (s : State) (x : Reg) : (s.loadRegs x).status = s.status := by
  simp only [State.loadRegs]
@[simp] theorem State.loadRegs_instrDue (s : State) (x : Reg) : (s.loadRegs x).instrDue = s.instrDue := by
  simp only [State.loadRegs]
@[simp] theorem State.loadRegs_timerDue (s : State) (x : Reg) : (s.loadRegs x).timerDue = s.timerDue := by
  simp only [State.loadRegs]
@[simp] theorem State.loadRegs_held (s : State) (x : Reg) : (s.loadRegs x).held = s.held := by
  simp only [State.loadRegs]
@[simp] theorem State.loadRegs_newKey (s : State) (x : Reg) : (s.loadRegs x).newKey = s.newKey := by
  simp only [State.loadRegs]
@[simp] theorem State.loadRegs_fb (s : State) (x : Reg) : (s.loadRegs x).fb = s.fb := by
  simp only [State.loadRegs]
@[simp] theorem State.loadRegs_screen (s : State) (x : Reg) : (s.loadRegs x).screen = s.screen := by
  simp only [State.loadRegs]
@[simp] theorem State.loadRegs_beeper (s : State) (x : Reg) : (s.loadRegs x).beeper = s.beeper := by
  simp only [State.loadRegs]
@[simp] theorem State.loadRegs_edgePolicy (s : State) (x : Reg) : (s.loadRegs x).edgePolicy = s.edgePolicy := by
  simp only [State.loadRegs]
@[simp] theorem State.loadRegs_inputs (s : State) (x : Reg) : (s.loadRegs x).inputs = s.inputs := by
  simp only [State.loadRegs]
@[simp] theorem State.loadRegs_calls (s : State) (x : Reg) : (s.loadRegs x).calls = s.calls := by
  simp only [State.loadRegs]

/-! ### tickTimers -/

@[simp] theorem State.tickTimers_v (s : State) : s.tickTimers.v = s.v := rfl
@[simp] theorem State.tickTimers_i (s : State) : s.tickTimers.i = s.i := rfl
@[simp] theorem State.tickTimers_pc (s : State) : s.tickTimers.pc = s.pc := rfl
@[simp] theorem State.tickTimers_sp (s : State) : s.tickTimers.sp = s.sp := rfl
@[simp] theorem State.tickTimers_stack (s : State) : s.tickTimers.stack = s.stack := rfl
@[simp] theorem State.tickTimers_dt (s : State) : s.tickTimers.dt = countDown s.dt := rfl
@[simp] theorem State.tickTimers_st (s : State) : s.tickTimers.st = countDown s.st := rfl
@[simp] theorem State.tickTimers_mem (s : State) : s.tickTimers.mem = s.mem := rfl
@[simp] theorem State.tickTimers_status (s : State) : s.tickTimers.status = s.status := rfl
@[simp] theorem State.tickTimers_instrDue (s : State) : s.tickTimers.instrDue = s.instrDue := rfl
@[simp] theorem State.tickTimers_timerDue (s : State) : s.tickTimers.timerDue = s.timerDue + 1 := rfl
@[simp] theorem State.tickTimers_held (s : State) : s.tickTimers.held = s.held := rfl
@[simp] theorem State.tickTimers_newKey (s : State) : s.tickTimers.newKey = s.newKey := rfl
@[simp] theorem State.tickTimers_fb (s : State) : s.tickTimers.fb = s.fb := rfl
@[simp] theorem State.tickTimers_screen (s : State) : s.tickTimers.screen = s.screen := rfl
@[simp] theorem State.tickTimers_beeper (s : State) : s.tickTimers.beeper = some (beepCommand (countDown s.st)) := rfl
@[simp] theorem State.tickTimers_edgePolicy (s : State) : s.tickTimers.edgePolicy = s.edgePolicy := rfl
@[simp] theorem State.tickTimers_inputs (s : State) : s.tickTimers.inputs = s.inputs := rfl
@[simp] theorem State.tickTimers_calls (s : State) : s.tickTimers.calls = s.calls ++ [.beep (beepCommand (countDown s.st))] := rfl

/-! ### beginCycle -/

@[simp] theorem State.beginCycle_v (s : State) : s.beginCycle.v = s.v := rfl
@[simp] theorem State.beginCycle_i (s : State) : s.beginCycle.i = s.i := rfl
@[simp] theorem State.beginCycle_pc (s : State) : s.beginCycle.pc = s.pc := rfl
@[simp] theorem State.beginCycle_sp (s : State) : s.beginCycle.sp = s.sp := rfl
@[simp] theorem State.beginCycle_stack (s : State) : s.beginCycle.stack = s.stack := rfl
@[simp] theorem State.beginCycle_dt (s : State) : s.beginCycle.dt = s.dt := rfl
@[simp] theorem State.beginCycle_st (s : State) : s.beginCycle.st = s.st := rfl
@[simp] theorem State.beginCycle_mem (s : State) : s.beginCycle.mem = s.mem := rfl
@[simp] theorem State.beginCycle_status (s : State) : s.beginCycle.status = s.status := rfl
@[simp] theorem State.beginCycle_instrDue (s : State) : s.beginCycle.instrDue = s.instrDue := rfl
@[simp] theorem State.beginCycle_timerDue (s : State) : s.beginCycle.timerDue = s.timerDue := rfl
@[simp] theorem State.beginCycle_held (s : State) : s.beginCycle.held = s.held := rfl
@[simp] theorem State.beginCycle_newKey (s : State) : s.beginCycle.newKey = s.newKey := rfl
@[simp] theorem State.beginCycle_fb (s : State) : s.beginCycle.fb = s.fb := rfl
@[simp] theorem State.beginCycle_screen (s : State) : s.beginCycle.screen = s.screen := rfl
@[simp] theorem State.beginCycle_beeper (s : State) : s.beginCycle.beeper = s.beeper := rfl
@[simp] theorem State.beginCycle_edgePolicy (s : State) : s.beginCycle.edgePolicy = s.edgePolicy := rfl
@[simp] theorem State.beginCycle_inputs (s : State) : s.beginCycle.inputs = { s.inputs with stop := s.inputs.stop.rest } := rfl
@[simp] theorem State.beginCycle_calls (s : State) : s.beginCycle.calls = [] := rfl

/-! ### skipIf -/

@[simp] theorem State.skipIf_v (s : State) (c : Bool) : (s.skipIf c).v = s.v := by cases c <;> rfl
@[simp] theorem State.skipIf_i (s : State) (c : Bool) : (s.skipIf c).i = s.i := by cases c <;> rfl
@[simp] theorem State.skipIf_pc (s : State) (c : Bool) : (s.skipIf c).pc = if c then s.pc + 2 else s.pc := by
  cases c <;> rfl
@[simp] theorem State.skipIf_sp (s : State) (c : Bool) : (s.skipIf c).sp = s.sp := by cases c <;> rfl
@[simp] theorem State.skipIf_stack (s : State) (c : Bool) : (s.skipIf c).stack = s.stack := by cases c <;> rfl
@[simp] theorem State.skipIf_dt (s : State) (c : Bool) : (s.skipIf c).dt = s.dt := by cases c <;> rfl
@[simp] theorem State.skipIf_st (s : State) (c : Bool) : (s.skipIf c).st = s.st := by cases c <;> rfl
@[simp] theorem State.skipIf_mem (s : State) (c : Bool) : (s.skipIf c).mem = s.mem := by cases c <;> rfl
@[simp] theorem State.skipIf_status (s : State) (c : Bool) : (s.skipIf c).status = s.status := by cases c <;> rfl
@[simp] theorem State.skipIf_instrDue (s : State) (c : Bool) : (s.skipIf c).instrDue = s.instrDue := by cases c <;> rfl
@[simp] theorem State.skipIf_timerDue (s : State) (c : Bool) : (s.skipIf c).timerDue = s.timerDue := by cases c <;> rfl
@[simp] theorem State.skipIf_held (s : State) (c : Bool) : (s.skipIf c).held = s.held := by cases c <;> rfl
@[simp] theorem State.skipIf_newKey (s : State) (c : Bool) : (s.skipIf c).newKey = s.newKey := by cases c <;> rfl
@[simp] theorem State.skipIf_fb (s : State) (c : Bool) : (s.skipIf c).fb = s.fb := by cases c <;> rfl
@[simp] theorem State.skipIf_screen (s : State) (c : Bool) : (s.skipIf c).screen = s.screen := by cases c <;> rfl
@[simp] theorem State.skipIf_beeper (s : State) (c : Bool) : (s.skipIf c).beeper = s.beeper := by cases c <;> rfl
@[simp] theorem State.skipIf_edgePolicy (s : State) (c : Bool) : (s.skipIf c).edgePolicy = s.edgePolicy := by cases c <;> rfl
@[simp] theorem State.skipIf_inputs (s : State) (c : Bool) : (s.skipIf c).inputs = s.inputs := by cases c <;> rfl
@[simp] theorem State.skipIf_calls (s : State) (c : Bool) : (s.skipIf c).calls = s.calls := by cases c <;> rfl

/-! ### setResult -/

@[simp] theorem State.setResult_i (s : State) (x : Reg) (r : Byte) (c : Bool) :
    (s.setResult x r c).i = s.i := rfl
@[simp] theorem State.setResult_pc (s : State) (x : Reg) (r : Byte) (c : Bool) :
    (s.setResult x r c).pc = s.pc := rfl
@[simp] theorem State.setResult_sp (s : State) (x : Reg) (r : Byte) (c : Bool) :
    (s.setResult x r c).sp = s.sp := rfl
@[simp] theorem State.setResult_stack (s : State) (x : Reg) (r : Byte) (c : Bool) :
    (s.setResult x r c).stack = s.stack := rfl
@[simp] theorem State.setResult_dt (s : State) (x : Reg) (r : Byte) (c : Bool) :
    (s.setResult x r c).dt = s.dt := rfl
@[simp] theorem State.setResult_st (s : State) (x : Reg) (r : Byte) (c : Bool) :
    (s.setResult x r c).st = s.st := rfl
@[simp] theorem State.setResult_mem (s : State) (x : Reg) (r : Byte) (c : Bool) :
    (s.setResult x r c).mem = s.mem := rfl
@[simp] theorem State.setResult_status (s : State) (x : Reg) (r : Byte) (c : Bool) :
    (s.setResult x r c).status = s.status := rfl
@[simp] theorem State.setResult_instrDue (s : State) (x : Reg) (r : Byte) (c : Bool) :
    (s.setResult x r c).instrDue = s.instrDue := rfl
@[simp] theorem State.setResult_timerDue (s : State) (x : Reg) (r : Byte) (c : Bool) :
    (s.setResult x r c).timerDue = s.timerDue := rfl
@[simp] theorem State.setResult_held (s : State) (x : Reg) (r : Byte) (c : Bool) :
    (s.setResult x r c).held = s.held := rfl
@[simp] theorem State.setResult_newKey (s : State) (x : Reg) (r : Byte) (c : Bool) :
    (s.setResult x r c).newKey = s.newKey := rfl
@[simp] theorem State.setResult_fb (s : State) (x : Reg) (r : Byte) (c : Bool) :
    (s.setResult x r c).fb = s.fb := rfl
@[simp] theorem State.setResult_screen (s : State) (x : Reg) (r : Byte) (c : Bool) :
    (s.setResult x r c).screen = s.screen := rfl
@[simp] theorem State.setResult_beeper (s : State) (x : Reg) (r : Byte) (c : Bool) :
    (s.setResult x r c).beeper = s.beeper := rfl
@[simp] theorem State.setResult_edgePolicy (s : State) (x : Reg) (r : Byte) (c : Bool) :
    (s.setResult x r c).edgePolicy = s.edgePolicy := rfl
@[simp] theorem State.setResult_inputs (s : State) (x : Reg) (r : Byte) (c : Bool) :
    (s.setResult x r c).inputs = s.inputs := rfl
@[simp] theorem State.setResult_calls (s : State) (x : Reg) (r : Byte) (c : Bool) :
    (s.setResult x r c).calls = s.calls := rfl

/-! ### Registers -/

theorem State.reg_eq_of_v {s t : State} (h : t.v = s.v) (x : Reg) : t.reg x = s.reg x := by
  simp [State.reg, h]

theorem State.reg_setReg (s : State) (x y : Reg) (b : Byte) :
    (s.setReg x b).reg y = if y = x then b else s.reg y := by
  by_cases h : y = x
  · subst h; simp [State.reg]
  · have h' : x.val ≠ y.val := fun e => h (Fin.ext e.symm)
    simp [State.reg, h, Vector.getElem_set_ne _ _ h']

@[simp] theorem State.reg_setReg_self (s : State) (x : Reg) (b : Byte) : (s.setReg x b).reg x = b := by
  simp [State.reg_setReg]

theorem State.reg_setReg_of_ne (s : State) {x y : Reg} (b : Byte) (h : y ≠ x) : (s.setReg x b).reg y = s.reg y := by
  simp [State.reg_setReg, h]

theorem State.reg_setFlag (s : State) (c : Bool) (y : Reg) :
    (s.setFlag c).reg y = if y = flagReg then (if c then 1 else 0) else s.reg y :=
  State.reg_setReg ..

/-- What an instruction that writes a result and then the flag leaves in each register (R160). -/
theorem State.reg_setResult (s : State) (x y : Reg) (r : Byte) (c : Bool) :
    (s.setResult x r c).reg y = if y = flagReg then (if c then 1 else 0) else if y = x then r else s.reg y := by
  simp [State.setResult, State.reg_setFlag, State.reg_setReg]

theorem State.reg_loadRegs (s : State) (x y : Reg) :
    (s.loadRegs x).reg y = if y ≤ x then s.mem.read (s.i.toNat + y.val) else s.reg y := by
  simp [State.reg, State.dataAddr]

end Sys2Proof.Machine
end

