-- ==== Sys2Proof/Laws/Ops.lean ====
section
/-! SUPPORT. One lemma per shared operation, saying what it can answer, so that no proof unfolds one. -/

namespace Sys2Proof.Machine

/-! ### Ending an instruction -/

@[simp] theorem State.complete_ok (s t : State) : s.complete (.ok t) = .next t := rfl

@[simp] theorem State.complete_raise (s : State) (k : FaultKind) :
    s.complete (.error (.raise k)) = .next (s.raise s.ia k) := rfl

@[simp] theorem State.complete_stop (s : State) (f : Fault) : s.complete (.error (.stop f)) = .fault f := rfl

/-- An instruction's end is a next state exactly when it went on, or raised a fault. -/
theorem State.complete_next {s t : State} {r : Except Trap State} :
    s.complete r = .next t ↔ r = .ok t ∨ ∃ k, r = .error (.raise k) ∧ t = s.raise s.ia k := by
  rcases r with e | u
  · cases e <;> simp [State.complete, eq_comm]
  · simp [State.complete]

/-! ### The bounds check -/

theorem checkLast_ok {last : Nat} (a : Access) (h : last < Config.memSize) : checkLast last a = .ok () := by
  simp [checkLast, Nat.not_le.mpr h]

theorem checkLast_raise {last : Nat} (a : Access) (h : Config.memSize ≤ last) :
    checkLast last a = .error (.raise (.memoryBounds (BitVec.ofNat 17 last) a)) := by
  simp [checkLast, h]

theorem checkLast_cases (last : Nat) (a : Access) :
    (last < Config.memSize ∧ checkLast last a = .ok ()) ∨
    (Config.memSize ≤ last ∧ checkLast last a = .error (.raise (.memoryBounds (BitVec.ofNat 17 last) a))) := by
  rcases Nat.lt_or_ge last Config.memSize with h | h
  · exact .inl ⟨h, checkLast_ok a h⟩
  · exact .inr ⟨h, checkLast_raise a h⟩

/-! ### The stack -/

/-- Push: one of its three ends (R33). -/
theorem State.push_cases (s : State) (w : Word) :
    (∃ h : s.sp.toNat < 16, s.push w = .ok { s with sp := s.sp + 1, stack := s.stack.set s.sp.toNat w }) ∨
    (s.sp.toNat = 16 ∧ s.push w = .error (.raise (.stackOverflow s.sp))) ∨
    (16 < s.sp.toNat ∧ s.push w = .error (.stop .stackPointerOutOfRange)) := by
  unfold State.push
  rcases Nat.lt_trichotomy s.sp.toNat 16 with h | h | h
  · exact .inl ⟨h, by simp [Config.stackDepth, h, Nat.ne_of_lt h]⟩
  · exact .inr (.inl ⟨h, by simp [Config.stackDepth, h]⟩)
  · exact .inr (.inr ⟨h, by simp [Config.stackDepth, Nat.ne_of_gt h, Nat.not_lt_of_gt h]⟩)

/-- Pop: one of its three ends (R34). -/
theorem State.pop_cases (s : State) :
    (s.sp.toNat = 0 ∧ s.pop = .error (.raise .stackUnderflow)) ∨
    (∃ h : s.sp.toNat - 1 < 16, 0 < s.sp.toNat ∧ s.pop = .ok (s.stack[s.sp.toNat - 1], { s with sp := s.sp - 1 })) ∨
    (16 < s.sp.toNat ∧ s.pop = .error (.stop .stackPointerOutOfRange)) := by
  unfold State.pop
  by_cases h0 : s.sp.toNat = 0
  · exact .inl ⟨h0, by simp [h0]⟩
  · by_cases h : s.sp.toNat - 1 < 16
    · exact .inr (.inl ⟨h, Nat.pos_of_ne_zero h0, by simp [h0, h]⟩)
    · exact .inr (.inr ⟨by omega, by simp [h0, h]⟩)

/-! ### Memory transfers -/

/-- Storing a block: all of it, or nothing and a fault (R64). -/
theorem State.storeBlock_cases (s : State) (bytes : List Byte) :
    (s.dataAddr (bytes.length - 1) < Config.memSize ∧
      s.storeBlock bytes = .ok (s.setMem (s.mem.writeRange s.i.toNat bytes))) ∨
    (Config.memSize ≤ s.dataAddr (bytes.length - 1) ∧
      s.storeBlock bytes =
        .error (.raise (.memoryBounds (BitVec.ofNat 17 (s.dataAddr (bytes.length - 1))) .write))) := by
  unfold State.storeBlock
  rcases checkLast_cases (s.dataAddr (bytes.length - 1)) .write with ⟨h, e⟩ | ⟨h, e⟩
  · exact .inl ⟨h, by rw [e]; rfl⟩
  · exact .inr ⟨h, by rw [e]⟩

theorem State.regsUpTo_length (s : State) (x : Reg) : (s.regsUpTo x).length = x.val + 1 := by
  simp [State.regsUpTo]

theorem State.regsUpTo_getElem (s : State) (x : Reg) (k : Nat) (h : k < (s.regsUpTo x).length) :
    (s.regsUpTo x)[k] = s.reg ⟨k, by rw [State.regsUpTo_length] at h; omega⟩ := by
  simp [State.regsUpTo, State.reg]

/-- The key operand: a key, or a fault (R273). -/
theorem keyIndex_cases (v : Byte) :
    (∃ h : v.toNat < 16, keyIndex v = .ok ⟨v.toNat, h⟩) ∨
    (16 ≤ v.toNat ∧ keyIndex v = .error (.raise (.keyRange v))) := by
  unfold keyIndex
  by_cases h : v.toNat < 16
  · exact .inl ⟨h, by simp [h]⟩
  · exact .inr ⟨by omega, by simp [h]⟩

/-! ### The ports -/

/-- A port's draws after j of them are its draws from the j-th on. -/
@[simp] theorem Feed.nth_skip {α : Type} (f : Feed α) (free : Nat → α) (j k : Nat) :
    (f.skip j).nth free k = f.nth free (j + k) := by
  simp [Feed.nth, Feed.skip, List.getD_eq_getElem?_getD, List.getElem?_drop, Nat.add_assoc]

@[simp] theorem Feed.nth_rest {α : Type} (f : Feed α) (free : Nat → α) (k : Nat) :
    f.rest.nth free k = f.nth free (1 + k) := Feed.nth_skip ..

@[simp] theorem Feed.skip_zero {α : Type} (f : Feed α) : f.skip 0 = f := rfl

@[simp] theorem Feed.skip_skip {α : Type} (f : Feed α) (j k : Nat) : (f.skip j).skip k = f.skip (j + k) := by
  simp [Feed.skip, Nat.add_assoc]

theorem Feed.rest_eq_skip {α : Type} (f : Feed α) : f.rest = f.skip 1 := rfl

/-- The draw the environment has ready is the one that is drawn. -/
theorem Feed.nth_zero_of_pending {α : Type} {f : Feed α} (free : Nat → α) {d : α} {ds : List α} (h : f.pending = d :: ds) :
    f.nth free 0 = d := by
  simp [Feed.nth, h]

/-! A state's draws are those of its ports: an operation that leaves the port alone leaves the draw. -/

theorem State.stopInput_congr {s t : State} (h : t.inputs.stop = s.inputs.stop) : t.stopInput = s.stopInput := by
  simp only [State.stopInput, h]
theorem State.tickInput_congr {s t : State} (h : t.inputs.tick = s.inputs.tick) : t.tickInput = s.tickInput := by
  simp only [State.tickInput, h]
theorem State.nextRand_congr {s t : State} (h : t.inputs.rand = s.inputs.rand) : t.nextRand = s.nextRand := by
  simp only [State.nextRand, h]
theorem State.ioDraw_congr {s t : State} (h : t.inputs.ioError = s.inputs.ioError) (k : Nat) : t.ioDraw k = s.ioDraw k := by
  simp only [State.ioDraw, h]
theorem State.ioDraw_of_rest {s t : State} (h : t.inputs.ioError = s.inputs.ioError.rest) (k : Nat) :
    t.ioDraw k = s.ioDraw (1 + k) := by
  simp only [State.ioDraw, h, Feed.nth_rest]
theorem State.nextPoll_congr {s t : State} (h : t.inputs.poll = s.inputs.poll) : t.nextPoll = s.nextPoll := by
  simp only [State.nextPoll, h]

@[simp] theorem State.takeStop_fst (s : State) : s.takeStop.1 = s.stopInput := rfl
@[simp] theorem State.takeTick_fst (s : State) : s.takeTick.1 = s.tickInput := rfl
@[simp] theorem State.takeRand_fst (s : State) : s.takeRand.1 = s.nextRand := rfl
@[simp] theorem State.callIo_fst (s : State) (c : PortCall) : (s.callIo c).1 = s.ioDraw 0 := rfl
@[simp] theorem State.takePoll_fst (s : State) : s.takePoll.1 = s.nextPoll := rfl
@[simp] theorem State.takeNewKey_fst (s : State) : s.takeNewKey.1 = s.newKey := rfl

/-! ### Fetch -/

/-- Fetch: the word at PC, or a fault that names PC + 1 (R63). -/
theorem State.fetch_cases (s : State) :
    (s.pc.toNat + 1 < Config.memSize ∧ s.fetch = .ok (s.wordAt s.pc.toNat)) ∨
    (Config.memSize ≤ s.pc.toNat + 1 ∧
      s.fetch = .error (.raise (.memoryBounds (BitVec.ofNat 17 (s.pc.toNat + 1)) .fetch))) := by
  unfold State.fetch
  rcases checkLast_cases (s.pc.toNat + 1) .fetch with ⟨h, e⟩ | ⟨h, e⟩
  · exact .inl ⟨h, by simp [e]⟩
  · exact .inr ⟨h, by simp [e]⟩

end Sys2Proof.Machine
end

