-- ==== Sys2Proof/Laws/Step.lean ====
section
/-! SUPPORT. What one step can do, said once: the inversion of a cycle and of a dispatch, and the cases of a cycle's tail. -/

namespace Sys2Proof.Machine

/-- A step that answers a next state ran in `Running`, and either took a stop input or dispatched. -/
theorem step_next_cases {s t : State} (h : step s = .next t) :
    s.status = .running ∧
      ((s.stopInput = true ∧ t = { s.beginCycle with status := .stopped }) ∨
       (s.stopInput = false ∧ ∃ u, dispatch s.beginCycle = .next u ∧ t = u.afterDispatch s.pc)) := by
  unfold step cycle at h
  split at h
  · cases h
  · cases h
  · rename_i hs
    refine ⟨hs, ?_⟩
    split_ifs at h with hstop
    · injection h with h
      exact .inl ⟨hstop, h.symm⟩
    · unfold runCycle at h
      split at h
      · rename_i u hu
        injection h with h
        exact .inr ⟨by simpa using hstop, u, hu, h.symm⟩
      · cases h
      · cases h

/-- A running machine with no stop input runs its dispatch and then the cycle's tail. -/
theorem step_running {s : State} (hs : s.status = .running) (hstop : s.stopInput = false) :
    step s = runCycle s.beginCycle := by
  simp [step, cycle, hs, hstop]

/-- What a dispatch does, by what it fetches. -/
theorem dispatch_cases (s : State) :
    (Config.memSize ≤ s.pc.toNat + 1 ∧
      dispatch s = .next (s.raise s.pc (.memoryBounds (BitVec.ofNat 17 (s.pc.toNat + 1)) .fetch))) ∨
    (s.pc.toNat + 1 < Config.memSize ∧ (∃ e, decodeWord (s.wordAt s.pc.toNat) = .error e) ∧
      dispatch s = .next (s.advance.raise s.pc (.illegalInstruction (s.wordAt s.pc.toNat)))) ∨
    (s.pc.toNat + 1 < Config.memSize ∧
      ∃ i, decodeWord (s.wordAt s.pc.toNat) = .ok i ∧ dispatch s = exec i s.advance) := by
  unfold dispatch
  rcases s.fetch_cases with ⟨h, e⟩ | ⟨h, e⟩
  · rw [e]
    cases hd : decodeWord (s.wordAt s.pc.toNat) with
    | error x => exact .inr (.inl ⟨h, ⟨x, rfl⟩, by simp [hd]⟩)
    | ok i => exact .inr (.inr ⟨h, i, rfl, by simp [hd]⟩)
  · exact .inl ⟨h, by rw [e]⟩

/-! ### The tick -/

theorem State.flush_failed {s : State} (ia : Word) (h : s.ioDraw 0 = true) :
    s.flush ia = (s.callIo .flush).2.raise ia (.peripheralError .flush) := by
  simp [State.flush, State.callIo, h]

theorem State.flush_done {s : State} (ia : Word) (h : s.ioDraw 0 = false) :
    s.flush ia = { (s.callIo .flush).2 with screen := some s.fb } := by
  simp [State.flush, State.callIo, h]

theorem State.tickPhase_idle {s : State} (ia : Word) (h : s.tickInput = false) :
    s.tickPhase ia = s.takeTick.2 := by
  simp only [State.tickPhase, State.takeTick, h]

theorem State.tickPhase_tick {s : State} (ia : Word) (h : s.tickInput = true) :
    s.tickPhase ia = s.takeTick.2.tickTimers.flush ia := by
  simp only [State.tickPhase, State.takeTick, h]

/-! ### The poll -/

theorem State.pollPhase_failed {s : State} (ia : Word) (h : s.ioDraw 0 = true) :
    s.pollPhase ia =
      (s.takePoll.2.callIo (.poll (remainingTime s.instrDue s.nextPoll.now))).2.raise ia (.peripheralError .poll) := by
  have h' : s.takePoll.2.ioDraw 0 = true := h
  simp only [State.takePoll] at h'
  simp [State.pollPhase, State.takePoll, State.callIo, h']

theorem State.pollPhase_done {s : State} (ia : Word) (h : s.ioDraw 0 = false) :
    s.pollPhase ia =
      { (s.takePoll.2.callIo (.poll (remainingTime s.instrDue s.nextPoll.now))).2 with
        held := s.nextPoll.held, newKey := s.nextPoll.newKey, instrDue := s.instrDue + 1 } := by
  have h' : s.takePoll.2.ioDraw 0 = false := h
  simp only [State.takePoll] at h'
  simp [State.pollPhase, State.takePoll, State.callIo, h']

/-! ### The cycle's tail -/

theorem State.afterDispatch_ended {s : State} (ia : Word) (h : s.status ≠ .running) : s.afterDispatch ia = s := by
  simp [State.afterDispatch, h]

/-- After a dispatch that raised nothing: the tick phase, and the poll unless the flush failed. -/
theorem State.afterDispatch_running {s : State} (ia : Word) (h : s.status = .running) :
    ((s.tickPhase ia).status = .running ∧ s.afterDispatch ia = (s.tickPhase ia).pollPhase ia) ∨
    ((s.tickPhase ia).status ≠ .running ∧ s.afterDispatch ia = s.tickPhase ia) := by
  by_cases ht : (s.tickPhase ia).status = .running
  · exact .inl ⟨ht, by simp [State.afterDispatch, h, ht]⟩
  · exact .inr ⟨ht, by simp [State.afterDispatch, h, ht]⟩

end Sys2Proof.Machine
end

