-- ==== Sys2Proof/Laws/Cycle.lean ====
section
/-! SUPPORT. What a cycle's tail leaves alone, field by field: the tick, the poll, and the two together. -/

namespace Sys2Proof.Machine

/-! ### The poll -/

@[simp] theorem State.pollPhase_v (s : State) (ia : Word) : (s.pollPhase ia).v = s.v := by
  cases h : s.ioDraw 0 <;> simp [State.pollPhase_done, State.pollPhase_failed, h]
@[simp] theorem State.pollPhase_i (s : State) (ia : Word) : (s.pollPhase ia).i = s.i := by
  cases h : s.ioDraw 0 <;> simp [State.pollPhase_done, State.pollPhase_failed, h]
@[simp] theorem State.pollPhase_pc (s : State) (ia : Word) : (s.pollPhase ia).pc = s.pc := by
  cases h : s.ioDraw 0 <;> simp [State.pollPhase_done, State.pollPhase_failed, h]
@[simp] theorem State.pollPhase_sp (s : State) (ia : Word) : (s.pollPhase ia).sp = s.sp := by
  cases h : s.ioDraw 0 <;> simp [State.pollPhase_done, State.pollPhase_failed, h]
@[simp] theorem State.pollPhase_stack (s : State) (ia : Word) : (s.pollPhase ia).stack = s.stack := by
  cases h : s.ioDraw 0 <;> simp [State.pollPhase_done, State.pollPhase_failed, h]
@[simp] theorem State.pollPhase_dt (s : State) (ia : Word) : (s.pollPhase ia).dt = s.dt := by
  cases h : s.ioDraw 0 <;> simp [State.pollPhase_done, State.pollPhase_failed, h]
@[simp] theorem State.pollPhase_st (s : State) (ia : Word) : (s.pollPhase ia).st = s.st := by
  cases h : s.ioDraw 0 <;> simp [State.pollPhase_done, State.pollPhase_failed, h]
@[simp] theorem State.pollPhase_mem (s : State) (ia : Word) : (s.pollPhase ia).mem = s.mem := by
  cases h : s.ioDraw 0 <;> simp [State.pollPhase_done, State.pollPhase_failed, h]
@[simp] theorem State.pollPhase_timerDue (s : State) (ia : Word) : (s.pollPhase ia).timerDue = s.timerDue := by
  cases h : s.ioDraw 0 <;> simp [State.pollPhase_done, State.pollPhase_failed, h]
@[simp] theorem State.pollPhase_fb (s : State) (ia : Word) : (s.pollPhase ia).fb = s.fb := by
  cases h : s.ioDraw 0 <;> simp [State.pollPhase_done, State.pollPhase_failed, h]
@[simp] theorem State.pollPhase_screen (s : State) (ia : Word) : (s.pollPhase ia).screen = s.screen := by
  cases h : s.ioDraw 0 <;> simp [State.pollPhase_done, State.pollPhase_failed, h]
@[simp] theorem State.pollPhase_beeper (s : State) (ia : Word) : (s.pollPhase ia).beeper = s.beeper := by
  cases h : s.ioDraw 0 <;> simp [State.pollPhase_done, State.pollPhase_failed, h]
@[simp] theorem State.pollPhase_edgePolicy (s : State) (ia : Word) : (s.pollPhase ia).edgePolicy = s.edgePolicy := by
  cases h : s.ioDraw 0 <;> simp [State.pollPhase_done, State.pollPhase_failed, h]

/-- A poll adds one due interval, or none when it fails (R324). -/
theorem State.pollPhase_instrDue_ge (s : State) (ia : Word) : s.instrDue ≤ (s.pollPhase ia).instrDue := by
  cases h : s.ioDraw 0 <;> simp [State.pollPhase_done, State.pollPhase_failed, h]

/-! ### The tick -/

@[simp] theorem State.flush_v (s : State) (ia : Word) : (s.flush ia).v = s.v := by
  cases h : s.ioDraw 0 <;> simp [State.flush_done, State.flush_failed, h]
@[simp] theorem State.flush_i (s : State) (ia : Word) : (s.flush ia).i = s.i := by
  cases h : s.ioDraw 0 <;> simp [State.flush_done, State.flush_failed, h]
@[simp] theorem State.flush_pc (s : State) (ia : Word) : (s.flush ia).pc = s.pc := by
  cases h : s.ioDraw 0 <;> simp [State.flush_done, State.flush_failed, h]
@[simp] theorem State.flush_sp (s : State) (ia : Word) : (s.flush ia).sp = s.sp := by
  cases h : s.ioDraw 0 <;> simp [State.flush_done, State.flush_failed, h]
@[simp] theorem State.flush_stack (s : State) (ia : Word) : (s.flush ia).stack = s.stack := by
  cases h : s.ioDraw 0 <;> simp [State.flush_done, State.flush_failed, h]
@[simp] theorem State.flush_mem (s : State) (ia : Word) : (s.flush ia).mem = s.mem := by
  cases h : s.ioDraw 0 <;> simp [State.flush_done, State.flush_failed, h]
@[simp] theorem State.flush_instrDue (s : State) (ia : Word) : (s.flush ia).instrDue = s.instrDue := by
  cases h : s.ioDraw 0 <;> simp [State.flush_done, State.flush_failed, h]
@[simp] theorem State.flush_held (s : State) (ia : Word) : (s.flush ia).held = s.held := by
  cases h : s.ioDraw 0 <;> simp [State.flush_done, State.flush_failed, h]
@[simp] theorem State.flush_newKey (s : State) (ia : Word) : (s.flush ia).newKey = s.newKey := by
  cases h : s.ioDraw 0 <;> simp [State.flush_done, State.flush_failed, h]
@[simp] theorem State.flush_fb (s : State) (ia : Word) : (s.flush ia).fb = s.fb := by
  cases h : s.ioDraw 0 <;> simp [State.flush_done, State.flush_failed, h]
@[simp] theorem State.flush_edgePolicy (s : State) (ia : Word) : (s.flush ia).edgePolicy = s.edgePolicy := by
  cases h : s.ioDraw 0 <;> simp [State.flush_done, State.flush_failed, h]
@[simp] theorem State.flush_dt (s : State) (ia : Word) : (s.flush ia).dt = s.dt := by
  cases h : s.ioDraw 0 <;> simp [State.flush_done, State.flush_failed, h]
@[simp] theorem State.flush_st (s : State) (ia : Word) : (s.flush ia).st = s.st := by
  cases h : s.ioDraw 0 <;> simp [State.flush_done, State.flush_failed, h]
@[simp] theorem State.flush_timerDue (s : State) (ia : Word) : (s.flush ia).timerDue = s.timerDue := by
  cases h : s.ioDraw 0 <;> simp [State.flush_done, State.flush_failed, h]
@[simp] theorem State.flush_beeper (s : State) (ia : Word) : (s.flush ia).beeper = s.beeper := by
  cases h : s.ioDraw 0 <;> simp [State.flush_done, State.flush_failed, h]

@[simp] theorem State.tickPhase_v (s : State) (ia : Word) : (s.tickPhase ia).v = s.v := by
  cases h : s.tickInput
  · simp [State.tickPhase_idle ia h]
  · simp [State.tickPhase_tick ia h]
@[simp] theorem State.tickPhase_i (s : State) (ia : Word) : (s.tickPhase ia).i = s.i := by
  cases h : s.tickInput
  · simp [State.tickPhase_idle ia h]
  · simp [State.tickPhase_tick ia h]
@[simp] theorem State.tickPhase_pc (s : State) (ia : Word) : (s.tickPhase ia).pc = s.pc := by
  cases h : s.tickInput
  · simp [State.tickPhase_idle ia h]
  · simp [State.tickPhase_tick ia h]
@[simp] theorem State.tickPhase_sp (s : State) (ia : Word) : (s.tickPhase ia).sp = s.sp := by
  cases h : s.tickInput
  · simp [State.tickPhase_idle ia h]
  · simp [State.tickPhase_tick ia h]
@[simp] theorem State.tickPhase_stack (s : State) (ia : Word) : (s.tickPhase ia).stack = s.stack := by
  cases h : s.tickInput
  · simp [State.tickPhase_idle ia h]
  · simp [State.tickPhase_tick ia h]
@[simp] theorem State.tickPhase_mem (s : State) (ia : Word) : (s.tickPhase ia).mem = s.mem := by
  cases h : s.tickInput
  · simp [State.tickPhase_idle ia h]
  · simp [State.tickPhase_tick ia h]
@[simp] theorem State.tickPhase_instrDue (s : State) (ia : Word) : (s.tickPhase ia).instrDue = s.instrDue := by
  cases h : s.tickInput
  · simp [State.tickPhase_idle ia h]
  · simp [State.tickPhase_tick ia h]
@[simp] theorem State.tickPhase_held (s : State) (ia : Word) : (s.tickPhase ia).held = s.held := by
  cases h : s.tickInput
  · simp [State.tickPhase_idle ia h]
  · simp [State.tickPhase_tick ia h]
@[simp] theorem State.tickPhase_newKey (s : State) (ia : Word) : (s.tickPhase ia).newKey = s.newKey := by
  cases h : s.tickInput
  · simp [State.tickPhase_idle ia h]
  · simp [State.tickPhase_tick ia h]
@[simp] theorem State.tickPhase_fb (s : State) (ia : Word) : (s.tickPhase ia).fb = s.fb := by
  cases h : s.tickInput
  · simp [State.tickPhase_idle ia h]
  · simp [State.tickPhase_tick ia h]
@[simp] theorem State.tickPhase_edgePolicy (s : State) (ia : Word) : (s.tickPhase ia).edgePolicy = s.edgePolicy := by
  cases h : s.tickInput
  · simp [State.tickPhase_idle ia h]
  · simp [State.tickPhase_tick ia h]

/-- A tick adds one due interval (R328). -/
theorem State.tickPhase_timerDue_ge (s : State) (ia : Word) : s.timerDue ≤ (s.tickPhase ia).timerDue := by
  cases h : s.tickInput
  · simp [State.tickPhase_idle ia h]
  · simp [State.tickPhase_tick ia h]

/-! ### The tail -/

@[simp] theorem State.afterDispatch_v (s : State) (ia : Word) : (s.afterDispatch ia).v = s.v := by
  unfold State.afterDispatch
  split_ifs <;> simp
@[simp] theorem State.afterDispatch_i (s : State) (ia : Word) : (s.afterDispatch ia).i = s.i := by
  unfold State.afterDispatch
  split_ifs <;> simp
@[simp] theorem State.afterDispatch_pc (s : State) (ia : Word) : (s.afterDispatch ia).pc = s.pc := by
  unfold State.afterDispatch
  split_ifs <;> simp
@[simp] theorem State.afterDispatch_sp (s : State) (ia : Word) : (s.afterDispatch ia).sp = s.sp := by
  unfold State.afterDispatch
  split_ifs <;> simp
@[simp] theorem State.afterDispatch_stack (s : State) (ia : Word) : (s.afterDispatch ia).stack = s.stack := by
  unfold State.afterDispatch
  split_ifs <;> simp
@[simp] theorem State.afterDispatch_mem (s : State) (ia : Word) : (s.afterDispatch ia).mem = s.mem := by
  unfold State.afterDispatch
  split_ifs <;> simp
@[simp] theorem State.afterDispatch_fb (s : State) (ia : Word) : (s.afterDispatch ia).fb = s.fb := by
  unfold State.afterDispatch
  split_ifs <;> simp
@[simp] theorem State.afterDispatch_edgePolicy (s : State) (ia : Word) : (s.afterDispatch ia).edgePolicy = s.edgePolicy := by
  unfold State.afterDispatch
  split_ifs <;> simp

theorem State.afterDispatch_instrDue_ge (s : State) (ia : Word) : s.instrDue ≤ (s.afterDispatch ia).instrDue := by
  unfold State.afterDispatch
  split_ifs
  · exact Nat.le_trans (Nat.le_of_eq (s.tickPhase_instrDue ia).symm) (State.pollPhase_instrDue_ge ..)
  · simp
  · exact Nat.le_refl _

theorem State.afterDispatch_timerDue_ge (s : State) (ia : Word) : s.timerDue ≤ (s.afterDispatch ia).timerDue := by
  unfold State.afterDispatch
  split_ifs
  · simpa using s.tickPhase_timerDue_ge ia
  · exact s.tickPhase_timerDue_ge ia
  · exact Nat.le_refl _

end Sys2Proof.Machine
end

