-- ==== Sys2Proof/Laws/Display.lean ====
section
/-! SUPPORT. The laws of the framebuffer: what a pixel is after one is flipped, and where a sprite's bits go. -/

namespace Sys2Proof.Machine

@[simp] theorem Framebuffer.lit_blank (px : Fin 64) (py : Fin 32) : Framebuffer.blank.lit px py = false := by
  simp [Framebuffer.lit, Framebuffer.blank]

/-- A flip turns its own pixel and no other (R342). -/
theorem Framebuffer.lit_flip (fb : Framebuffer) (px qx : Fin 64) (py qy : Fin 32) :
    (fb.flip px py).lit qx qy = if qx = px ∧ qy = py then !fb.lit px py else fb.lit qx qy := by
  unfold Framebuffer.flip Framebuffer.lit
  by_cases hy : qy = py
  · subst hy
    by_cases hx : qx = px
    · subst hx
      simp [show 63 - qx.val < 64 by omega]
    · have hx' : ¬ (63 - px.val = 63 - qx.val) := fun e => hx (Fin.ext (by omega))
      simp [hx, BitVec.getLsbD_twoPow, hx']
  · have hy' : py.val ≠ qy.val := fun e => hy (Fin.ext e.symm)
    simp [hy, Vector.getElem_set_ne _ _ hy']

/-- Two bitmaps with the same pixels are the same. -/
theorem Framebuffer.ext_lit {fb gb : Framebuffer} (h : ∀ px py, fb.lit px py = gb.lit px py) : fb = gb := by
  refine Vector.ext fun y hy => BitVec.eq_of_getLsbD_eq fun b hb => ?_
  have := h ⟨63 - b, by omega⟩ ⟨y, hy⟩
  simpa [Framebuffer.lit, show 63 - (63 - b) = b by omega] using this

theorem place_clip_of_lt {px py : Nat} (hx : px < 64) (hy : py < 32) : place .clip px py = some (⟨px, hx⟩, ⟨py, hy⟩) := by
  simp [place, hx, hy]

theorem place_clip_of_not_lt {px py : Nat} (h : ¬ (px < 64 ∧ py < 32)) : place .clip px py = none := by
  simp only [place, h]; rfl

/-- Pixels less than 64 columns apart, in rows less than 32 apart, are placed apart (R344). -/
theorem place_injective {p : Config.EdgePolicy} {a b c d : Nat} {q : Fin 64 × Fin 32}
    (h1 : place p a c = some q) (h2 : place p b d = some q)
    (hx : a < b + 64 ∧ b < a + 64) (hy : c < d + 32 ∧ d < c + 32) : a = b ∧ c = d := by
  cases p with
  | clip =>
    simp only [place] at h1 h2
    split_ifs at h1 h2 with g1 g2
    injection h1 with h1
    injection h2 with h2
    rw [← h2] at h1
    simpa using h1
  | wrap =>
    simp only [place] at h1 h2
    injection h1 with h1
    injection h2 with h2
    rw [← h2] at h1
    simp at h1
    omega

end Sys2Proof.Machine
end

