-- ==== Sys2Proof/Laws/Encoding.lean ====
section
/-! SUPPORT. The fields of an encoded word (R92, R94): what each field reads as in each format. -/

namespace Sys2Proof

/-- The types of `Instr` carry the widths: every instruction is well formed (R22, R100). -/
theorem instr_wellFormed (i : Instr) : i.wellFormed = true := by
  cases i <;> simp [Instr.wellFormed, Instr.operands, Operand.wellFormed] <;> omega

/-! ### Format ADDR -/

@[simp] theorem opField_encodeAddr (op : BitVec 4) (nnn : BitVec 12) : opField (encodeAddr op nnn) = op := by
  ext i hi
  simp [opField, encodeAddr, show 12 + i < 16 by omega, BitVec.getLsbD_eq_getElem hi]

@[simp] theorem nnnField_encodeAddr (op : BitVec 4) (nnn : BitVec 12) : nnnField (encodeAddr op nnn) = nnn := by
  ext i hi
  simp [nnnField, encodeAddr, show i < 16 by omega, hi]

/-! ### Formats XNN and X -/

@[simp] theorem opField_encodeXNN (op : BitVec 4) (x : Reg) (nn : Byte) : opField (encodeXNN op x nn) = op := by
  ext i hi
  have hx : (BitVec.ofFin (w := 4) x).getLsbD (12 + i - 8) = false := BitVec.getLsbD_of_ge _ _ (by omega)
  simp only [BitVec.getLsbD_ofFin] at hx
  have hn : nn.getLsbD (12 + i) = false := BitVec.getLsbD_of_ge _ _ (by omega)
  simp [opField, encodeXNN, show 12 + i < 16 by omega, hx, hn, BitVec.getLsbD_eq_getElem hi]

@[simp] theorem xField_encodeXNN (op : BitVec 4) (x : Reg) (nn : Byte) : xField (encodeXNN op x nn) = x := by
  have h : (encodeXNN op x nn).extractLsb' 8 4 = BitVec.ofFin x := by
    ext i hi
    simp [encodeXNN, show 8 + i < 16 by omega, show 8 + i < 12 by omega]
  simp [xField, h]

@[simp] theorem nnField_encodeXNN (op : BitVec 4) (x : Reg) (nn : Byte) : nnField (encodeXNN op x nn) = nn := by
  ext i hi
  simp [nnField, encodeXNN, show i < 16 by omega, show i < 12 by omega, hi]

/-! ### Formats XYN and XY -/

@[simp] theorem opField_encodeXYN (op : BitVec 4) (x y : Reg) (n : BitVec 4) : opField (encodeXYN op x y n) = op := by
  ext i hi
  have hx : (BitVec.ofFin (w := 4) x).getLsbD (12 + i - 8) = false := BitVec.getLsbD_of_ge _ _ (by omega)
  have hy : (BitVec.ofFin (w := 4) y).getLsbD (12 + i - 4) = false := BitVec.getLsbD_of_ge _ _ (by omega)
  simp only [BitVec.getLsbD_ofFin] at hx hy
  have hn : n.getLsbD (12 + i) = false := BitVec.getLsbD_of_ge _ _ (by omega)
  simp [opField, encodeXYN, show 12 + i < 16 by omega, hx, hy, hn, BitVec.getLsbD_eq_getElem hi]

@[simp] theorem xField_encodeXYN (op : BitVec 4) (x y : Reg) (n : BitVec 4) : xField (encodeXYN op x y n) = x := by
  have h : (encodeXYN op x y n).extractLsb' 8 4 = BitVec.ofFin x := by
    ext i hi
    have hy : (BitVec.ofFin (w := 4) y).getLsbD (8 + i - 4) = false := BitVec.getLsbD_of_ge _ _ (by omega)
    simp only [BitVec.getLsbD_ofFin] at hy
    have hn : n.getLsbD (8 + i) = false := BitVec.getLsbD_of_ge _ _ (by omega)
    simp [encodeXYN, show 8 + i < 16 by omega, show 8 + i < 12 by omega, hy, hn]
  simp [xField, h]

@[simp] theorem yField_encodeXYN (op : BitVec 4) (x y : Reg) (n : BitVec 4) : yField (encodeXYN op x y n) = y := by
  have h : (encodeXYN op x y n).extractLsb' 4 4 = BitVec.ofFin y := by
    ext i hi
    simp [encodeXYN, show 4 + i < 16 by omega, show 4 + i < 12 by omega, show 4 + i < 8 by omega]
  simp [yField, h]

@[simp] theorem nField_encodeXYN (op : BitVec 4) (x y : Reg) (n : BitVec 4) : nField (encodeXYN op x y n) = n := by
  ext i hi
  simp [nField, encodeXYN, show i < 16 by omega, show i < 12 by omega, show i < 8 by omega, hi]

/-! ### Bytes -/

/-- A word's two bytes, high byte first, make the word again (R67). -/
@[simp] theorem wordOfBytes_highByte_lowByte (w : Word) : wordOfBytes (highByte w) (lowByte w) = w := by
  ext i hi
  by_cases h : i < 8
  · simp [wordOfBytes, highByte, lowByte, h, hi]
  · simp [wordOfBytes, highByte, lowByte, h, hi, show i - 8 < 8 by omega, show 8 + (i - 8) = i by omega]

end Sys2Proof
end

