-- ==== Sys2Proof/Laws/Exec.lean ====
section
/-! SUPPORT. What `exec` can answer, said once: a next state is the raise of a fault, or the instruction's own effect. -/

namespace Sys2Proof.Machine

/-- The state in which an instruction's fault is raised: the instruction's own address is PC − 2 (R91, R300). -/
abbrev State.raised (s : State) (k : FaultKind) : State := s.raise (s.pc - 2) k

/-- The next states `exec` can answer, instruction by instruction. -/
def NextOf (s t : State) : Instr → Prop
  | .cls =>
    (s.ioDraw 0 = true ∧ t = (s.callIo .clear).2.raised (.peripheralError .clear)) ∨
    (s.ioDraw 0 = false ∧ t = (s.callIo .clear).2.setFb Framebuffer.blank)
  | .ret =>
    (s.sp.toNat = 0 ∧ t = s.raised .stackUnderflow) ∨
    (∃ h : s.sp.toNat - 1 < 16, 0 < s.sp.toNat ∧ t = { s with sp := s.sp - 1 }.setPc s.stack[s.sp.toNat - 1])
  | .jp nnn => t = s.setPc (addrOperand nnn)
  | .call nnn =>
    (s.sp.toNat = 16 ∧ t = s.raised (.stackOverflow s.sp)) ∨
    (∃ h : s.sp.toNat < 16,
      t = { s with sp := s.sp + 1, stack := s.stack.set s.sp.toNat s.pc }.setPc (addrOperand nnn))
  | .seImm x nn => t = s.skipIf (decide (s.reg x = nn))
  | .sneImm x nn => t = s.skipIf (decide (s.reg x ≠ nn))
  | .seReg x y => t = s.skipIf (decide (s.reg x = s.reg y))
  | .ldImm x nn => t = s.setReg x nn
  | .addImm x nn => t = s.setReg x (addResult (s.reg x) nn)
  | .ldReg x y => t = s.setReg x (s.reg y)
  | .orReg x y => t = s.setReg x (s.reg x ||| s.reg y)
  | .andReg x y => t = s.setReg x (s.reg x &&& s.reg y)
  | .xorReg x y => t = s.setReg x (s.reg x ^^^ s.reg y)
  | .addReg x y => t = s.setResult x (addResult (s.reg x) (s.reg y)) (carryFlag (s.reg x) (s.reg y))
  | .subReg x y => t = s.setResult x (subResult (s.reg x) (s.reg y)) (noBorrowFlag (s.reg x) (s.reg y))
  | .shr x _ => t = s.setResult x (shrResult (s.reg x)) (shrFlag (s.reg x))
  | .subn x y => t = s.setResult x (subResult (s.reg y) (s.reg x)) (noBorrowFlag (s.reg y) (s.reg x))
  | .shl x _ => t = s.setResult x (shlResult (s.reg x)) (shlFlag (s.reg x))
  | .sneReg x y => t = s.skipIf (decide (s.reg x ≠ s.reg y))
  | .ldI nnn => t = s.setI (addrOperand nnn)
  | .jpV0 nnn => t = s.setPc (wordOperand (s.reg 0) + addrOperand nnn)
  | .rnd x nn => t = s.takeRand.2.setReg x (nn &&& s.nextRand)
  | .drw x y n =>
    (n.toNat ≠ 0 ∧ Config.memSize ≤ s.dataAddr (n.toNat - 1) ∧
      t = s.raised (.memoryBounds (BitVec.ofNat 17 (s.dataAddr (n.toNat - 1))) .read)) ∨
    ((n.toNat = 0 ∨ s.dataAddr (n.toNat - 1) < Config.memSize) ∧
      ∃ bytes, bytes = s.mem.readRange s.i.toNat n.toNat ∧
        ((s.ioDraw 0 = true ∧
            t = (s.callIo (.draw (s.reg x) (s.reg y) bytes)).2.raised (.peripheralError .draw)) ∨
          (s.ioDraw 0 = false ∧
            t = ((s.callIo (.draw (s.reg x) (s.reg y) bytes)).2.setFb
              (s.fb.draw s.edgePolicy (s.reg x) (s.reg y) bytes).1).setFlag
                (s.fb.draw s.edgePolicy (s.reg x) (s.reg y) bytes).2)))
  | .skp x =>
    (16 ≤ (s.reg x).toNat ∧ t = s.raised (.keyRange (s.reg x))) ∨
    (∃ h : (s.reg x).toNat < 16, t = s.skipIf (s.keyHeld ⟨(s.reg x).toNat, h⟩))
  | .sknp x =>
    (16 ≤ (s.reg x).toNat ∧ t = s.raised (.keyRange (s.reg x))) ∨
    (∃ h : (s.reg x).toNat < 16, t = s.skipIf (!s.keyHeld ⟨(s.reg x).toNat, h⟩))
  | .ldVxDt x => t = s.setReg x s.dt
  | .ldVxK x =>
    (∃ k, s.newKey = some k ∧ t = s.takeNewKey.2.setReg x (keyOperand k)) ∨
    (s.newKey = none ∧ t = s.takeNewKey.2.setPc (s.pc - 2))
  | .ldDtVx x => t = s.setDt (s.reg x)
  | .ldStVx x => t = s.setSt (s.reg x)
  | .addI x => t = (s.setI (indexResult s.i (s.reg x))).setFlag (indexFlag s.i (s.reg x))
  | .ldF x => t = s.setI (glyphAddr (s.reg x))
  | .ldB x =>
    (Config.memSize ≤ s.dataAddr 2 ∧ t = s.raised (.memoryBounds (BitVec.ofNat 17 (s.dataAddr 2)) .write)) ∨
    (s.dataAddr 2 < Config.memSize ∧ t = s.setMem (s.mem.writeRange s.i.toNat (decimalDigits (s.reg x))))
  | .store x =>
    (Config.memSize ≤ s.dataAddr x.val ∧
      t = s.raised (.memoryBounds (BitVec.ofNat 17 (s.dataAddr x.val)) .write)) ∨
    (s.dataAddr x.val < Config.memSize ∧ t = s.setMem (s.mem.writeRange s.i.toNat (s.regsUpTo x)))
  | .load x =>
    (Config.memSize ≤ s.dataAddr x.val ∧
      t = s.raised (.memoryBounds (BitVec.ofNat 17 (s.dataAddr x.val)) .read)) ∨
    (s.dataAddr x.val < Config.memSize ∧ t = s.loadRegs x)

/-- The transfers check the last address of their block (R64). -/
theorem State.storeBlock_regs (s : State) (x : Reg) :
    (s.dataAddr x.val < Config.memSize ∧
      s.storeBlock (s.regsUpTo x) = .ok (s.setMem (s.mem.writeRange s.i.toNat (s.regsUpTo x)))) ∨
    (Config.memSize ≤ s.dataAddr x.val ∧
      s.storeBlock (s.regsUpTo x) = .error (.raise (.memoryBounds (BitVec.ofNat 17 (s.dataAddr x.val)) .write))) := by
  simpa only [State.regsUpTo_length, Nat.add_sub_cancel] using s.storeBlock_cases (s.regsUpTo x)

theorem execCls_next {s t : State} (h : execCls s = .next t) : NextOf s t .cls := by
  injection h with h
  cases hio : s.ioDraw 0 <;> simp only [hio, if_true] at h
  · exact .inr ⟨hio, h.symm⟩
  · exact .inl ⟨hio, h.symm⟩

theorem execRet_next {s t : State} (h : execRet s = .next t) : NextOf s t .ret := by
  unfold execRet at h
  rcases s.pop_cases with ⟨h0, e⟩ | ⟨h1, h0, e⟩ | ⟨-, e⟩ <;> rw [e] at h
  · injection h with h
    exact .inl ⟨h0, h.symm⟩
  · injection h with h
    exact .inr ⟨h1, h0, h.symm⟩
  · cases h

theorem execCall_next {s t : State} {nnn : BitVec 12} (h : execCall nnn s = .next t) : NextOf s t (.call nnn) := by
  unfold execCall at h
  rcases s.push_cases s.pc with ⟨h0, e⟩ | ⟨h0, e⟩ | ⟨-, e⟩ <;> rw [e] at h
  · injection h with h
    exact .inr ⟨h0, h.symm⟩
  · injection h with h
    exact .inl ⟨h0, h.symm⟩
  · cases h

theorem execDrw_next {s t : State} {x y : Reg} {n : BitVec 4} (h : execDrw x y n s = .next t) :
    NextOf s t (.drw x y n) := by
  have draws : s.drawSprite (s.reg x) (s.reg y) (s.mem.readRange s.i.toNat n.toNat) = .next t →
      ∃ bytes, bytes = s.mem.readRange s.i.toNat n.toNat ∧
        ((s.ioDraw 0 = true ∧
            t = (s.callIo (.draw (s.reg x) (s.reg y) bytes)).2.raised (.peripheralError .draw)) ∨
          (s.ioDraw 0 = false ∧
            t = ((s.callIo (.draw (s.reg x) (s.reg y) bytes)).2.setFb
              (s.fb.draw s.edgePolicy (s.reg x) (s.reg y) bytes).1).setFlag
                (s.fb.draw s.edgePolicy (s.reg x) (s.reg y) bytes).2)) := by
    intro h
    refine ⟨_, rfl, ?_⟩
    cases hio : s.ioDraw 0 <;> simp only [State.drawSprite, State.callIo, hio, if_true] at h <;> injection h with h
    · exact .inr ⟨rfl, h.symm⟩
    · exact .inl ⟨rfl, h.symm⟩
  unfold execDrw State.checkSprite countOperand at h
  by_cases hn : n.toNat = 0
  · rw [if_pos hn] at h
    exact .inr ⟨.inl hn, draws h⟩
  · rw [if_neg hn] at h
    rcases checkLast_cases (s.dataAddr (n.toNat - 1)) .read with ⟨hb, e⟩ | ⟨hb, e⟩ <;> rw [e] at h
    · exact .inr ⟨.inr hb, draws h⟩
    · injection h with h
      exact .inl ⟨hn, hb, h.symm⟩

theorem execSkp_next {s t : State} {x : Reg} (h : execSkp x s = .next t) : NextOf s t (.skp x) := by
  unfold execSkp at h
  rcases keyIndex_cases (s.reg x) with ⟨hk, e⟩ | ⟨hk, e⟩ <;> rw [e] at h <;> injection h with h
  · exact .inr ⟨hk, h.symm⟩
  · exact .inl ⟨hk, h.symm⟩

theorem execSknp_next {s t : State} {x : Reg} (h : execSknp x s = .next t) : NextOf s t (.sknp x) := by
  unfold execSknp at h
  rcases keyIndex_cases (s.reg x) with ⟨hk, e⟩ | ⟨hk, e⟩ <;> rw [e] at h <;> injection h with h
  · exact .inr ⟨hk, h.symm⟩
  · exact .inl ⟨hk, h.symm⟩

theorem execLdVxK_next {s t : State} {x : Reg} (h : execLdVxK x s = .next t) : NextOf s t (.ldVxK x) := by
  unfold execLdVxK State.takeNewKey at h
  cases hk : s.newKey with
  | none =>
    rw [hk] at h
    injection h with h
    exact .inr ⟨hk, h.symm⟩
  | some k =>
    rw [hk] at h
    injection h with h
    exact .inl ⟨k, hk, h.symm⟩

theorem execLdB_next {s t : State} {x : Reg} (h : execLdB x s = .next t) : NextOf s t (.ldB x) := by
  unfold execLdB at h
  rcases s.storeBlock_cases (decimalDigits (s.reg x)) with ⟨hb, e⟩ | ⟨hb, e⟩ <;> rw [e] at h <;> injection h with h
  · exact .inr ⟨hb, h.symm⟩
  · exact .inl ⟨hb, h.symm⟩

theorem execStore_next {s t : State} {x : Reg} (h : execStore x s = .next t) : NextOf s t (.store x) := by
  unfold execStore at h
  rcases s.storeBlock_regs x with ⟨hb, e⟩ | ⟨hb, e⟩ <;> rw [e] at h <;> injection h with h
  · exact .inr ⟨hb, h.symm⟩
  · exact .inl ⟨hb, h.symm⟩

theorem execLoad_next {s t : State} {x : Reg} (h : execLoad x s = .next t) : NextOf s t (.load x) := by
  unfold execLoad at h
  rcases checkLast_cases (s.dataAddr x.val) .read with ⟨hb, e⟩ | ⟨hb, e⟩ <;> rw [e] at h <;> injection h with h
  · exact .inr ⟨hb, h.symm⟩
  · exact .inl ⟨hb, h.symm⟩

/-- Every next state of `exec` is one of `NextOf`. -/
theorem exec_next {i : Instr} {s t : State} (h : exec i s = .next t) : NextOf s t i := by
  cases i
  case cls => exact execCls_next h
  case ret => exact execRet_next h
  case call => exact execCall_next h
  case drw => exact execDrw_next h
  case skp => exact execSkp_next h
  case sknp => exact execSknp_next h
  case ldVxK => exact execLdVxK_next h
  case ldB => exact execLdB_next h
  case store => exact execStore_next h
  case load => exact execLoad_next h
  all_goals
    injection h with h
    exact h.symm

end Sys2Proof.Machine
end

