-- ==== Sys2Proof/Laws/PerInstr.lean ====
section
/-! SUPPORT. Facts about every instruction as syntax, one lemma per constructor: family RowMatch says that the instruction's word
matches its row of R95, and that its operands pass the assembler's checks (R100). -/

namespace Sys2Proof.Laws.RowMatch

/-- (encode i AND mask) = match, for the row of `i` (R95); and the operands are in range (R100). -/
def Statement (i : Instr) : Prop := encode i &&& i.row.1 = i.row.2 ∧ i.wellFormed = true

theorem addr_mask {op : BitVec 4} {m : Word} (h : op.setWidth 16 <<< 12 = m) (nnn : BitVec 12) :
    encodeAddr op nnn &&& 0xF000 = m := by
  subst h
  ext i hi
  interval_cases i <;> simp [encodeAddr]

theorem xnn_mask {op : BitVec 4} {m : Word} (h : op.setWidth 16 <<< 12 = m) (x : Reg) (nn : Byte) :
    encodeXNN op x nn &&& 0xF000 = m := by
  subst h
  ext i hi
  interval_cases i <;> simp [encodeXNN]

theorem x_mask {op : BitVec 4} {nn : Byte} {m : Word} (h : (op.setWidth 16 <<< 12) ||| nn.setWidth 16 = m) (x : Reg) :
    encodeXNN op x nn &&& 0xF0FF = m := by
  subst h
  ext i hi
  interval_cases i <;> simp [encodeXNN]

theorem xyn_mask {op : BitVec 4} {m : Word} (h : op.setWidth 16 <<< 12 = m) (x y : Reg) (n : BitVec 4) :
    encodeXYN op x y n &&& 0xF000 = m := by
  subst h
  ext i hi
  interval_cases i <;> simp [encodeXYN]

theorem xy_mask {op n : BitVec 4} {m : Word} (h : (op.setWidth 16 <<< 12) ||| n.setWidth 16 = m) (x y : Reg) :
    encodeXYN op x y n &&& 0xF00F = m := by
  subst h
  ext i hi
  interval_cases i <;> simp [encodeXYN]

theorem cls : Statement .cls := ⟨by decide, instr_wellFormed _⟩
theorem ret : Statement .ret := ⟨by decide, instr_wellFormed _⟩
theorem jp (nnn : BitVec 12) : Statement (.jp nnn) := ⟨addr_mask rfl .., instr_wellFormed _⟩
theorem call (nnn : BitVec 12) : Statement (.call nnn) := ⟨addr_mask rfl .., instr_wellFormed _⟩
theorem seImm (x : Reg) (nn : Byte) : Statement (.seImm x nn) := ⟨xnn_mask rfl .., instr_wellFormed _⟩
theorem sneImm (x : Reg) (nn : Byte) : Statement (.sneImm x nn) := ⟨xnn_mask rfl .., instr_wellFormed _⟩
theorem seReg (x y : Reg) : Statement (.seReg x y) := ⟨xy_mask rfl .., instr_wellFormed _⟩
theorem ldImm (x : Reg) (nn : Byte) : Statement (.ldImm x nn) := ⟨xnn_mask rfl .., instr_wellFormed _⟩
theorem addImm (x : Reg) (nn : Byte) : Statement (.addImm x nn) := ⟨xnn_mask rfl .., instr_wellFormed _⟩
theorem ldReg (x y : Reg) : Statement (.ldReg x y) := ⟨xy_mask rfl .., instr_wellFormed _⟩
theorem orReg (x y : Reg) : Statement (.orReg x y) := ⟨xy_mask rfl .., instr_wellFormed _⟩
theorem andReg (x y : Reg) : Statement (.andReg x y) := ⟨xy_mask rfl .., instr_wellFormed _⟩
theorem xorReg (x y : Reg) : Statement (.xorReg x y) := ⟨xy_mask rfl .., instr_wellFormed _⟩
theorem addReg (x y : Reg) : Statement (.addReg x y) := ⟨xy_mask rfl .., instr_wellFormed _⟩
theorem subReg (x y : Reg) : Statement (.subReg x y) := ⟨xy_mask rfl .., instr_wellFormed _⟩
theorem shr (x y : Reg) : Statement (.shr x y) := ⟨xy_mask rfl .., instr_wellFormed _⟩
theorem subn (x y : Reg) : Statement (.subn x y) := ⟨xy_mask rfl .., instr_wellFormed _⟩
theorem shl (x y : Reg) : Statement (.shl x y) := ⟨xy_mask rfl .., instr_wellFormed _⟩
theorem sneReg (x y : Reg) : Statement (.sneReg x y) := ⟨xy_mask rfl .., instr_wellFormed _⟩
theorem ldI (nnn : BitVec 12) : Statement (.ldI nnn) := ⟨addr_mask rfl .., instr_wellFormed _⟩
theorem jpV0 (nnn : BitVec 12) : Statement (.jpV0 nnn) := ⟨addr_mask rfl .., instr_wellFormed _⟩
theorem rnd (x : Reg) (nn : Byte) : Statement (.rnd x nn) := ⟨xnn_mask rfl .., instr_wellFormed _⟩
theorem drw (x y : Reg) (n : BitVec 4) : Statement (.drw x y n) := ⟨xyn_mask rfl .., instr_wellFormed _⟩
theorem skp (x : Reg) : Statement (.skp x) := ⟨x_mask rfl .., instr_wellFormed _⟩
theorem sknp (x : Reg) : Statement (.sknp x) := ⟨x_mask rfl .., instr_wellFormed _⟩
theorem ldVxDt (x : Reg) : Statement (.ldVxDt x) := ⟨x_mask rfl .., instr_wellFormed _⟩
theorem ldVxK (x : Reg) : Statement (.ldVxK x) := ⟨x_mask rfl .., instr_wellFormed _⟩
theorem ldDtVx (x : Reg) : Statement (.ldDtVx x) := ⟨x_mask rfl .., instr_wellFormed _⟩
theorem ldStVx (x : Reg) : Statement (.ldStVx x) := ⟨x_mask rfl .., instr_wellFormed _⟩
theorem addI (x : Reg) : Statement (.addI x) := ⟨x_mask rfl .., instr_wellFormed _⟩
theorem ldF (x : Reg) : Statement (.ldF x) := ⟨x_mask rfl .., instr_wellFormed _⟩
theorem ldB (x : Reg) : Statement (.ldB x) := ⟨x_mask rfl .., instr_wellFormed _⟩
theorem store (x : Reg) : Statement (.store x) := ⟨x_mask rfl .., instr_wellFormed _⟩
theorem load (x : Reg) : Statement (.load x) := ⟨x_mask rfl .., instr_wellFormed _⟩

end Sys2Proof.Laws.RowMatch
end

