-- ==== Sys2Proof/Tests/Slice0.lean ====
section
/-! SUPPORT. The model's own tests: words written out from the encodings of spec/30_encoding.md, vectors of
spec/95_test_vectors.md, and witnesses for the hypotheses of the statements. Expected results are the spec's. -/

namespace Sys2Proof.Tests
open Sys2Proof.Machine

/-! ### WellFormed: an ill-formed operand for each check (R100, R22) -/

theorem test_wellFormed_refuses_reg_16 : Operand.wellFormed (.reg 16) = false := by decide
theorem test_wellFormed_refuses_addr_13_bits : Operand.wellFormed (.addr 0x1000) = false := by decide
theorem test_wellFormed_refuses_imm_9_bits : Operand.wellFormed (.imm 0x100) = false := by decide
theorem test_wellFormed_refuses_count_5_bits : Operand.wellFormed (.count 16) = false := by decide
theorem test_wellFormed_takes_largest : (Instr.drw 15 15 15).wellFormed = true ∧ (Instr.jp 0xFFF).wellFormed = true := by
  decide

/-! ### Decoding: every constructor, its word written bit by bit from R94 and R95 -/

theorem test_decode_control_flow :
    decodeWord 0b0000000011101110 = .ok .ret ∧
    decodeWord 0b0001001000001000 = .ok (.jp 0x208) ∧
    decodeWord 0b0010001100000000 = .ok (.call 0x300) ∧
    decodeWord 0b1011001100000001 = .ok (.jpV0 0x301) ∧
    decodeWord 0b0011001101000010 = .ok (.seImm 3 0x42) ∧
    decodeWord 0b0100001101000010 = .ok (.sneImm 3 0x42) ∧
    decodeWord 0b0101000100100000 = .ok (.seReg 1 2) ∧
    decodeWord 0b1001000100100000 = .ok (.sneReg 1 2) := by decide

theorem test_decode_alu :
    decodeWord 0b0110000000000101 = .ok (.ldImm 0 0x05) ∧
    decodeWord 0b0111001000000011 = .ok (.addImm 2 0x03) ∧
    decodeWord 0b1000000000010000 = .ok (.ldReg 0 1) ∧
    decodeWord 0b1000000000010001 = .ok (.orReg 0 1) ∧
    decodeWord 0b1000000000010010 = .ok (.andReg 0 1) ∧
    decodeWord 0b1000000000010011 = .ok (.xorReg 0 1) ∧
    decodeWord 0b1000000000010100 = .ok (.addReg 0 1) ∧
    decodeWord 0b1000000000010101 = .ok (.subReg 0 1) ∧
    decodeWord 0b1000111111100110 = .ok (.shr 15 14) ∧
    decodeWord 0b1000000000010111 = .ok (.subn 0 1) ∧
    decodeWord 0b1000000000011110 = .ok (.shl 0 1) ∧
    decodeWord 0b1100010000001111 = .ok (.rnd 4 0x0F) := by decide

theorem test_decode_index_memory :
    decodeWord 0b1010001000000000 = .ok (.ldI 0x200) ∧
    decodeWord 0b1111000100011110 = .ok (.addI 1) ∧
    decodeWord 0b1111001000101001 = .ok (.ldF 2) ∧
    decodeWord 0b1111000000110011 = .ok (.ldB 0) ∧
    decodeWord 0b1111001001010101 = .ok (.store 2) ∧
    decodeWord 0b1111001001100101 = .ok (.load 2) := by decide

theorem test_decode_display :
    decodeWord 0b0000000011100000 = .ok .cls ∧ decodeWord 0b1101000000010101 = .ok (.drw 0 1 5) := by decide

theorem test_decode_timers_keys :
    decodeWord 0b1110000110011110 = .ok (.skp 1) ∧
    decodeWord 0b1110000110100001 = .ok (.sknp 1) ∧
    decodeWord 0b1111000100000111 = .ok (.ldVxDt 1) ∧
    decodeWord 0b1111001100001010 = .ok (.ldVxK 3) ∧
    decodeWord 0b1111000100010101 = .ok (.ldDtVx 1) ∧
    decodeWord 0b1111000100011000 = .ok (.ldStVx 1) := by decide

/-- Vectors A29, A30, M21, T19, Y1, Y2, Y3: illegal words. -/
theorem test_decode_illegal :
    ([0x8018, 0x801F, 0xF0FF, 0xE0FF, 0x0000, 0x0123, 0x5121, 0x9121] : List Word).all
      (fun w => decide (decodeWord w = .error (.illegal w))) = true := by decide

theorem test_decode_takes_two_bytes :
    decode [0x60, 0x05, 0x61, 0x03] = .ok (.ldImm 0 5, [0x61, 0x03]) ∧ decode [0x60] = .error .truncated := by decide

theorem test_decodeTableWord : decodeTableWord 16 0xF255 = some (.store 2) ∧ decodeTableWord 16 0x0000 = none := by
  decide

/-! ### One step on a small state -/

/-- The draws spec/95_test_vectors.md section 0 gives one cycle: no stop, no tick, no failure, no key. -/
def quiet : Inputs where
  stop := ⟨[false], 0⟩
  tick := ⟨[false], 0⟩
  rand := .empty
  ioError := ⟨[false, false, false], 0⟩
  poll := ⟨[⟨0, Vector.replicate 16 false, none⟩], 0⟩

/-- Reset, with the draws of one quiet cycle ready. -/
def ready : State := { State.reset with inputs := quiet }

/-- That state, with the given changes, and the word at 0x200. -/
def start (w : Word) (f : State → State := id) : State := (f ready).withFetchWord 16 w.toNat

/-- The step answers a next state for which the check holds. -/
def nextIs (o : Out) (p : State → Bool) : Bool :=
  match o with
  | .next t => p t
  | _ => false

/-- The step answers a next state that is faulted with the kind, at IA 0x200, with PC = 0x202. -/
def faults (o : Out) (k : FaultKind) : Bool :=
  nextIs o fun t => decide (t.status = .faulted ⟨k, 0x200⟩) && t.pc == 0x202

/-- One or two registers set. -/
def regs (x : Reg) (a : Byte) (y : Reg) (b : Byte) (s : State) : State := (s.setReg x a).setReg y b

/-- A machine that ticks in its next cycle. -/
def ticking (s : State) : State := { s with inputs := { s.inputs with tick := ⟨[true], 0⟩ } }

/-- The next failure draws. -/
def io (draws : List Bool) (s : State) : State := { s with inputs := { s.inputs with ioError := ⟨draws, 0⟩ } }

/-- The next random bytes. -/
def rolls (draws : List Byte) (s : State) : State := { s with inputs := { s.inputs with rand := ⟨draws, 0⟩ } }

-- Control flow: CF1, CF4 to CF12, CF15, CF17
theorem test_jp : nextIs (step (start 0x1208)) (fun t => t.pc == 0x208) = true := by decide
theorem test_call : nextIs (step (start 0x2300)) (fun t => t.pc == 0x300 && t.sp == 1 && t.stack[0] == 0x202) = true := by
  decide
theorem test_call_overflow :
    faults (step (start 0x2300 fun s => { s with sp := 16 })) (.stackOverflow 16) = true := by decide
theorem test_ret :
    nextIs (step (start 0x00EE fun s => { s with sp := 1, stack := s.stack.set 0 0x204 }))
      (fun t => t.pc == 0x204 && t.sp == 0 && t.stack[0] == 0x204) = true := by decide
theorem test_ret_underflow : faults (step (start 0x00EE)) .stackUnderflow = true := by decide
theorem test_jpV0 : nextIs (step (start 0xBFFF (regs 0 0xFF 1 0))) (fun t => t.pc == 0x10FE) = true := by decide
theorem test_seImm : nextIs (step (start 0x3342 (regs 3 0x42 0 0))) (fun t => t.pc == 0x204) = true := by decide
theorem test_seImm_not : nextIs (step (start 0x3342 (regs 3 0x41 0 0))) (fun t => t.pc == 0x202) = true := by
  decide
theorem test_sneImm : nextIs (step (start 0x4342 (regs 3 0x42 0 0))) (fun t => t.pc == 0x202) = true := by decide
theorem test_seReg : nextIs (step (start 0x5120 (regs 1 7 2 7))) (fun t => t.pc == 0x204) = true := by decide
theorem test_sneReg : nextIs (step (start 0x9120 (regs 1 7 2 8))) (fun t => t.pc == 0x204) = true := by decide

-- ALU: A1, A3, A5 to A8, A10 to A12, A14, A16, A19, A20, A21, A23, A25, A26; W5
theorem test_ldImm : nextIs (step (start 0x6005)) (fun t => t.reg 0 == 5 && t.pc == 0x202) = true := by decide
theorem test_addImm_no_flag :
    nextIs (step (start 0x7203 (regs 2 0xFE 15 0x55))) (fun t => t.reg 2 == 1 && t.reg 15 == 0x55) = true := by
  decide
theorem test_ldReg : nextIs (step (start 0x8010 (regs 1 0x33 0 0))) (fun t => t.reg 0 == 0x33) = true := by decide
theorem test_orReg :
    nextIs (step (start 0x8011 (regs 0 0x0F 1 0xF0))) (fun t => t.reg 0 == 0xFF && t.reg 15 == 0) = true := by
  decide
theorem test_andReg : nextIs (step (start 0x8012 (regs 0 0x3C 1 0x0F))) (fun t => t.reg 0 == 0x0C) = true := by
  decide
theorem test_xorReg : nextIs (step (start 0x8013 (regs 0 0x3C 1 0x0F))) (fun t => t.reg 0 == 0x33) = true := by
  decide
theorem test_addReg_old_flag :
    nextIs (step (start 0x80F4 (regs 0 1 15 0xFF))) (fun t => t.reg 0 == 0 && t.reg 15 == 1) = true := by decide
theorem test_addReg_flag_last : nextIs (step (start 0x8FF4 (regs 15 0x80 0 0))) (fun t => t.reg 15 == 1) = true := by
  decide
theorem test_subReg :
    nextIs (step (start 0x8015 (regs 0 3 1 5))) (fun t => t.reg 0 == 0xFE && t.reg 15 == 0) = true := by decide
theorem test_subReg_equal :
    nextIs (step (start 0x8015 (regs 0 7 1 7))) (fun t => t.reg 0 == 0 && t.reg 15 == 1) = true := by decide
theorem test_shr :
    nextIs (step (start 0x8016 (regs 0 5 1 0xFF))) (fun t => t.reg 0 == 2 && t.reg 1 == 0xFF && t.reg 15 == 1) = true := by
  decide
theorem test_shr_flag_register : nextIs (step (start 0x8FE6 (regs 15 3 14 0))) (fun t => t.reg 15 == 1) = true := by
  decide
theorem test_subn :
    nextIs (step (start 0x8017 (regs 0 3 1 5))) (fun t => t.reg 0 == 2 && t.reg 15 == 1) = true := by decide
theorem test_subn_borrow :
    nextIs (step (start 0x8017 (regs 0 1 1 0))) (fun t => t.reg 0 == 0xFF && t.reg 15 == 0) = true := by decide
theorem test_shl :
    nextIs (step (start 0x801E (regs 0 0x81 1 0))) (fun t => t.reg 0 == 2 && t.reg 15 == 1) = true := by decide
theorem test_shl_no_carry :
    nextIs (step (start 0x801E (regs 0 0x41 1 0xFF))) (fun t => t.reg 0 == 0x82 && t.reg 15 == 0) = true := by
  decide
theorem test_rnd :
    nextIs (step (start 0xC40F (rolls [0xA7, 0x11])))
      (fun t => t.reg 4 == 7 && t.inputs.rand.pending == [0x11]) = true := by decide

-- Index register and memory: M2, M3, M4, M6, M7, M8, M12, M13, M14, M15, M17, M18, M20
theorem test_ldI : nextIs (step (start 0xAFFF)) (fun t => t.i == 0xFFF) = true := by decide
theorem test_addI_carry :
    nextIs (step (start 0xFF1E fun s => (regs 15 1 0 0 s).setI 0xFFFF)) (fun t => t.i == 0 && t.reg 15 == 1) = true := by
  decide
theorem test_addI_no_12_bit_flag :
    nextIs (step (start 0xF01E fun s => (regs 0 1 15 9 s).setI 0x0FFF)) (fun t => t.i == 0x1000 && t.reg 15 == 0) = true := by
  decide
theorem test_ldF : nextIs (step (start 0xFF29 (regs 15 0xFF 0 0))) (fun t => t.i == 0x04FB && t.reg 15 == 0xFF) = true := by
  decide
theorem test_ldB :
    nextIs (step (start 0xF033 fun s => (regs 0 0xFE 1 0 s).setI 0x300))
      (fun t => t.mem.readRange 0x300 3 == [2, 5, 4] && t.i == 0x300) = true := by decide
theorem test_ldB_bounds :
    faults (step (start 0xF033 fun s => (regs 0 1 1 0 s).setI 0xFFE)) (.memoryBounds 0x1000 .write) = true := by
  decide
theorem test_store :
    nextIs (step (start 0xF155 fun s => (regs 0 1 1 2 s).setI 0xFFE))
      (fun t => t.mem.readRange 0xFFE 2 == [1, 2] && t.i == 0xFFE) = true := by decide
theorem test_store_bounds :
    faults (step (start 0xF155 fun s => (regs 0 7 1 8 s).setI 0xFFF)) (.memoryBounds 0x1000 .write) = true := by
  decide
theorem test_load :
    nextIs (step (start 0xF165 fun s => { s with i := 0x300, mem := [(0x300, 1), (0x301, 2), (0x302, 3)] }))
      (fun t => t.reg 0 == 1 && t.reg 1 == 2 && t.reg 2 == 0 && t.i == 0x300) = true := by decide
theorem test_load_bounds : faults (step (start 0xF165 fun s => s.setI 0xFFF)) (.memoryBounds 0x1000 .read) = true := by
  decide

/-- The listed pixels, as (column, row), are lit, and the others listed are not. -/
def showsPixels (fb : Framebuffer) (lit unlit : List (Fin 64 × Fin 32)) : Bool :=
  lit.all (fun q => fb.lit q.1 q.2) && unlit.all (fun q => !fb.lit q.1 q.2)

/-- Vectors D1 and D14's call of the port. -/
theorem test_cls :
    nextIs (step (start 0x00E0 fun s => s.setFb (s.fb.flip 3 4)))
      (fun t => t.fb.lit 3 4 == false && decide (PortCall.clear ∈ t.calls)) = true := by decide
theorem test_cls_fails :
    faults (step (start 0x00E0 (io [true])))
      (.peripheralError .clear) = true := by decide
/-- Vector D7 (CLIP) for the glyph byte F0. -/
theorem test_drw_clip :
    nextIs (step (start 0xD011 fun s => { regs 0 62 1 31 s with mem := [(0, 0xF0)] }))
      (fun t => showsPixels t.fb [(62, 31), (63, 31)] [(61, 31), (0, 31), (1, 31), (62, 30), (62, 0)] && t.reg 15 == 0) = true := by decide
/-- Vector D12: pixel (3, 0) is lit, the byte is 0x10. -/
theorem test_drw_collision :
    nextIs (step (start 0xD011 fun s => { s with mem := [(0, 0x10)], fb := s.fb.flip 3 0 }))
      (fun t => showsPixels t.fb [] [(3, 0), (4, 0), (2, 0), (3, 1)] && t.reg 15 == 1) = true := by decide
/-- Vector D8 (WRAP). -/
theorem test_draw_wrap :
    showsPixels (Framebuffer.blank.draw .wrap 62 31 [0xF0]).1 [(0, 31), (1, 31), (62, 31), (63, 31)]
      [(61, 31), (2, 31), (62, 0)] = true := by decide
/-- Vector D6. -/
theorem test_drw_bounds : faults (step (start 0xD00F fun s => s.setI 0xFF2)) (.memoryBounds 0x1000 .read) = true := by
  decide

-- Timers and keys: T2, T4, T7, T9, T12, T13, T14, T15, T16
theorem test_ldVxDt :
    nextIs (step (start 0xF107 fun s => ticking (s.setDt 5))) (fun t => t.reg 1 == 5 && t.dt == 4) = true := by
  decide
theorem test_ldDtVx :
    nextIs (step (start 0xF115 fun s => ticking (regs 1 5 0 0 s)))
      (fun t => t.dt == 4 && decide (t.beeper = some .pause)) = true := by decide
theorem test_ldStVx :
    nextIs (step (start 0xF118 fun s => ticking (regs 1 2 0 0 s)))
      (fun t => t.st == 1 && decide (t.beeper = some .play) && t.screen == some t.fb) = true := by decide
theorem test_skp :
    nextIs (step (start 0xE19E fun s => { regs 1 5 0 0 s with held := s.held.set 5 true })) (fun t => t.pc == 0x204) = true := by
  decide
theorem test_skp_range : faults (step (start 0xE09E (regs 0 0x10 1 0))) (.keyRange 0x10) = true := by decide
theorem test_sknp :
    nextIs (step (start 0xE1A1 fun s => { regs 1 5 0 0 s with held := s.held.set 5 true })) (fun t => t.pc == 0x202) = true := by
  decide
theorem test_sknp_range : faults (step (start 0xE0A1 (regs 0 0xFF 1 0))) (.keyRange 0xFF) = true := by decide
theorem test_ldVxK :
    nextIs (step (start 0xF30A fun s => { s with newKey := some 7 }))
      (fun t => t.reg 3 == 7 && t.pc == 0x202 && t.newKey == none) = true := by decide
theorem test_ldVxK_waits :
    nextIs (step (start 0xF30A fun s => { s with held := s.held.set 7 true })) (fun t => t.pc == 0x200 && t.reg 3 == 0) = true := by
  decide

-- Cycle and faults: CF3, Y1, Y4, and the scheduler
theorem test_fetch_bounds :
    nextIs (step (ready.setPc 0xFFF))
      (fun t => decide (t.status = .faulted ⟨.memoryBounds 0x1000 .fetch, 0xFFF⟩) && t.pc == 0xFFF) = true := by
  decide
theorem test_illegal_word : faults (step ready) (.illegalInstruction 0x0000) = true := by decide
/-- A machine whose next cycle is stopped. -/
def stopping : State := { ready with inputs := { quiet with stop := ⟨[true], 0⟩ } }

theorem test_stop : nextIs (step stopping) (fun t => decide (t.status = .stopped) && t.pc == 0x200) = true := by decide
/-- R345, R383: what the poll draws is the key state of the next cycle. -/
theorem test_poll_sets_keys :
    nextIs (step (start 0x6005 fun s =>
        { s with inputs := { s.inputs with poll := ⟨[⟨0, (Vector.replicate 16 false).set 5 true, some 7⟩], 0⟩ } }))
      (fun t => t.keyHeld 5 && !t.keyHeld 4 && t.newKey == some 7) = true := by decide
/-- Vectors Y7, Y8 and W10: with 600 Hz the first tick is in cycle 10, with 700 Hz in cycle 12, with 60 Hz in cycle 1. -/
theorem test_reference_schedule :
    (refTick 600 9, refTick 600 10, refTick 600 11) = (false, true, false) ∧
    (refTick 700 11, refTick 700 12, refTick 700 13) = (false, true, false) ∧
    (refTick 60 0, refTick 60 1, refTick 60 2) = (false, true, true) := by decide
/-- Vector W10: 3585 bytes are refused. -/
theorem test_load_program_too_long (image : List Byte) (h : image.length = 3585) :
    State.reset.loadProgram image = .error (.tooLong 3585) := by
  simp [State.loadProgram, h, Config.maxProgram]
/-- Vector W10 and R66: the glyph of F stands at 0x04B. -/
theorem test_font : (State.reset.loadFont defaultFont).mem.readRange 0x4B 5 = [0xF0, 0x80, 0xF0, 0x80, 0x80] := by
  decide
theorem test_fault_codes :
    (FaultRecord.code ⟨.illegalInstruction 0, 0⟩, FaultRecord.code ⟨.peripheralError .poll, 0⟩) = (1, 6) := by decide

/-! ### Witnesses: for each statement with hypotheses, states and operands that meet them, at boundary values -/

/-- The IA + 2 state of the statements about `exec`: reset with PC moved past a word at 0x200, with the given changes. -/
def fetched (f : State → State := id) : State := f (ready.setPc 0x202)

/-- `exec` answers a next state for which the check holds. -/
def execs (i : Instr) (s : State) (p : State → Bool) : Bool := nextIs (exec i s) p

theorem test_witness_EncodeDecodeRoundTrip : decodeWord 0xDFFF = .ok (.drw 15 15 15) := by decide
theorem test_witness_DecoderFollowsTable :
    (0xF00F, 0x800E) ∈ opcodeTable ∧ (0x8FFE : Word) &&& 0xF00F = 0x800E ∧ decodeWord 0x8FFE = .ok (.shl 15 15) := by decide
theorem test_witness_DecoderFollowsTable_illegal :
    (∀ r ∈ opcodeTable, (0x8FFF : Word) &&& r.1 ≠ r.2) ∧ (∀ r ∈ opcodeTable, (0xFFFF : Word) &&& r.1 ≠ r.2) := by
  simp [opcodeTable]

theorem test_witness_StepRunsDecodedInstruction :
    (start 0x6005).status = .running ∧ (start 0x6005).stopInput = false ∧ (start 0x6005).pc.toNat + 1 < 4096 ∧
    decode [(start 0x6005).mem.read (start 0x6005).pc.toNat, (start 0x6005).mem.read ((start 0x6005).pc.toNat + 1)] =
      .ok (.ldImm 0 5, []) ∧
    execs (.ldImm 0 5) (start 0x6005).beginCycle.advance (fun _ => true) = true := by decide
/-- The clause for a fault: SP of 17, which no run reaches. -/
theorem test_witness_StepRunsDecodedInstruction_fault :
    exec .ret (start 0x00EE fun s => { s with sp := 17 }).beginCycle.advance = .fault .stackPointerOutOfRange := rfl
theorem test_witness_FetchChecksBothBytes :
    (ready.setPc 0xFFF).status = .running ∧ (ready.setPc 0xFFF).stopInput = false ∧
    4096 ≤ (ready.setPc 0xFFF).pc.toNat + 1 ∧ 4096 ≤ (ready.setPc 0xFFFF).pc.toNat + 1 ∧
    (ready.setPc 0xFFE).pc.toNat + 1 < 4096 := by decide
theorem test_witness_IllegalWordFaults :
    ready.status = .running ∧ ready.stopInput = false ∧ (ready.setPc 0xFFE).pc.toNat + 1 < 4096 ∧
    ready.pc.toNat + 1 < 4096 ∧ ready.wordAt ready.pc.toNat = 0x0000 := by decide
theorem test_witness_IllegalWordFaults_word : ∀ r ∈ opcodeTable, (0x0000 : Word) &&& r.1 ≠ r.2 := by
  simp [opcodeTable]

theorem test_witness_StopInputEndsRun : stopping.status = .running ∧ stopping.stopInput = true := by decide
theorem test_witness_NoCycleOutsideRunning :
    nextIs (step stopping) (fun t => decide (t.status = .stopped)) = true ∧
    faults (step ready) (.illegalInstruction 0) = true := by decide
theorem test_witness_FaultEndsCycle :
    ready.status = .running ∧ ready.stopInput = false ∧
    faults (dispatch ready.beginCycle) (.illegalInstruction 0) = true := by decide
theorem test_witness_TickCountsTimersDown :
    (ticking ready).status = .running ∧ (ticking ready).tickInput = true ∧ (ticking ready).ioDraw 0 = false ∧
    (ticking ready).ioDraw 1 = false := by decide
/-- The clauses on the command: ST of 2 is 1 after the tick, ST of 1 is 0 (R276, R326). -/
theorem test_witness_TickCountsTimersDown_beeper :
    ((ticking (ready.setSt 2)).afterDispatch 0x200).st ≠ 0 ∧
    ((ticking (ready.setSt 1)).afterDispatch 0x200).st = 0 := by decide
theorem test_witness_PollSetsKeyState :
    ready.status = .running ∧ ready.tickInput = false ∧ ready.ioDraw 0 = false := by decide
theorem test_witness_PeripheralFailureInTail :
    (io [true] (ticking ready)).status = .running ∧
    (io [true] (ticking ready)).tickInput = true ∧ (io [true] (ticking ready)).ioDraw 0 = true ∧
    (io [true] ready).tickInput = false ∧ (io [true] ready).ioDraw 0 = true ∧
    (io [false, true] (ticking ready)).ioDraw 0 = false ∧ (io [false, true] (ticking ready)).ioDraw 1 = true := by decide
/-- The clauses on the command after a failed flush and after a failed poll (R326). -/
theorem test_witness_PeripheralFailureInTail_beeper :
    ((io [true] (ticking (ready.setSt 2))).afterDispatch 0x200).st ≠ 0 ∧
    ((io [true] (ticking (ready.setSt 1))).afterDispatch 0x200).st = 0 ∧
    ((io [false, true] (ticking (ready.setSt 2))).afterDispatch 0x200).st ≠ 0 := by decide
theorem test_witness_ReadyDrawsAreTakenInOrder :
    ready.inputs.stop.pending = false :: [] ∧ ready.inputs.tick.pending = false :: [] ∧
    (rolls [0xA7] ready).inputs.rand.pending = 0xA7 :: [] ∧
    ready.inputs.poll.pending = ⟨0, Vector.replicate 16 false, none⟩ :: [] ∧
    2 < ready.inputs.ioError.pending.length := by decide
/-- A cycle that runs to its end and makes a call of the instruction's own. -/
theorem test_witness_EachCycleTakesItsDraws :
    nextIs (step (start 0x00E0)) (fun t => decide (t.status = .running)) = true := by decide

theorem test_witness_BootLoadsFontAndProgram :
    (List.replicate 3584 (0x12 : Byte)).length ≤ 3584 ∧ 3584 < (List.replicate 3585 (0x12 : Byte)).length ∧
    ([] : List Byte).length ≤ 3584 := by
  rw [List.length_replicate, List.length_replicate]
  decide
theorem test_witness_ResetAndBootMeetInvariant : ∃ s, boot defaultFont [0x12, 0x00] = .ok s := ⟨_, rfl⟩

/-- The last fetchable PC, a full stack of the highest return addresses, and `00EE` there. -/
def atTheBounds : State :=
  { ready with pc := 0xFFE, sp := 16, stack := Vector.replicate 16 0x1000, mem := [(0xFFF, 0xEE)] }

theorem test_witness_StepKeepsInvariant : Inv atTheBounds ∧ ∃ t, step atTheBounds = .next t :=
  ⟨⟨by decide, by decide, by decide, by decide, by decide⟩, _, rfl⟩
theorem test_witness_RunningMachineAlwaysSteps :
    ∃ s₀ s, boot defaultFont [0x12, 0x00] = .ok s₀ ∧ Reaches s₀ s ∧ s.status = .running ∧ s ≠ s₀ :=
  ⟨_, _, rfl, .step (.start quiet .clip) rfl, rfl, by decide⟩

theorem test_witness_EveryInstructionAnswersNext : (fetched fun s => { s with sp := 16 }).sp.toNat ≤ 16 := by decide
/-- Each instruction that can fault, faulting from a running state: for InstructionFaultsArePrecise and FaultKindsByInstruction. -/
theorem test_witness_FaultKindsByInstruction :
    fetched.status = .running ∧
    faults (exec .cls (fetched (io [true]))) (.peripheralError .clear) = true ∧
    faults (exec .ret fetched) .stackUnderflow = true ∧
    faults (exec (.call 0x300) (fetched fun s => { s with sp := 16 })) (.stackOverflow 16) = true ∧
    faults (exec (.drw 0 0 0) (fetched (io [true]))) (.peripheralError .draw) = true ∧
    faults (exec (.drw 0 0 1) (fetched fun s => s.setI 0x1000)) (.memoryBounds 0x1000 .read) = true ∧
    faults (exec (.skp 0) (fetched fun s => s.setReg 0 16)) (.keyRange 16) = true ∧
    faults (exec (.sknp 0) (fetched fun s => s.setReg 0 255)) (.keyRange 255) = true ∧
    faults (exec (.ldB 0) (fetched fun s => s.setI 0xFFFF)) (.memoryBounds 0x10001 .write) = true ∧
    faults (exec (.store 15) (fetched fun s => s.setI 0xFF1)) (.memoryBounds 0x1000 .write) = true ∧
    faults (exec (.load 0) (fetched fun s => s.setI 0x1000)) (.memoryBounds 0x1000 .read) = true := by decide
theorem test_witness_OnlyStoresWriteMemory :
    execs (.ldB 0) (fetched fun s => (s.setReg 0 123).setI 0xFFD) (fun t => t.mem.read 0xFFF != fetched.mem.read 0xFFF) = true ∧
    execs (.store 15) (fetched fun s => (s.setReg 15 9).setI 0xFF0) (fun t => t.mem.read 0xFFF != fetched.mem.read 0xFFF) =
      true := by decide
theorem test_witness_OnlyCallAndReturnTouchStack :
    execs (.call 0x300) fetched (fun t => t.sp != fetched.sp) = true ∧
    execs (.call 0x300) fetched (fun t => t.stack != fetched.stack) = true ∧
    execs .ret (fetched fun s => { s with sp := 1 }) (fun t => t.sp != 1) = true := by decide
theorem test_witness_SpecialRegisterWriters :
    execs (.ldI 1) fetched (fun t => t.i != fetched.i) = true ∧
    execs (.ldDtVx 0) (fetched fun s => s.setReg 0 1) (fun t => t.dt != fetched.dt) = true ∧
    execs (.ldStVx 0) (fetched fun s => s.setReg 0 1) (fun t => t.st != fetched.st) = true ∧
    execs (.jp 0x300) fetched (fun t => t.pc != fetched.pc) = true := by decide
theorem test_witness_FlagWriters :
    execs (.addReg 0 0) (fetched fun s => s.setReg 0 128) (fun t => t.reg 15 != fetched.reg 15) = true ∧
    execs (.ldImm 15 1) fetched (fun t => t.reg 15 != fetched.reg 15) = true := by decide
theorem test_witness_NoInstructionActsForTheScheduler : execs (.jp 0x300) fetched (fun _ => true) = true := by decide

theorem test_witness_ReturnPopsProgramCounter :
    (fetched fun s => { s with sp := 1 }).sp.toNat = (0 : Fin 16).val + 1 ∧
    (fetched fun s => { s with sp := 16 }).sp.toNat = (15 : Fin 16).val + 1 ∧ fetched.sp = 0 := by decide
theorem test_witness_CallPushesReturnAddress :
    fetched.sp.toNat = (0 : Fin 16).val ∧ (fetched fun s => { s with sp := 15 }).sp.toNat = (15 : Fin 16).val ∧
    (fetched fun s => { s with sp := 16 }).sp.toNat = 16 := by decide
/-- The state `u` may differ from the call's own: here another PC and another register. -/
theorem test_witness_ReturnUndoesCall :
    ∃ s t u : State, s.sp.toNat = (15 : Fin 16).val ∧ exec (.call 0x300) s = .next t ∧ u.sp = t.sp ∧
      u.stack[(15 : Fin 16).val] = t.stack[(15 : Fin 16).val] ∧ u.pc ≠ t.pc :=
  ⟨fetched fun s => { s with sp := 15 }, _,
    fetched fun s => { s with sp := 16, stack := s.stack.set 15 0x202, pc := 0x400 }, by decide, rfl, by decide, by decide,
    by decide⟩
theorem test_witness_Skips :
    fetched.reg 3 = 0 ∧ fetched.reg 3 ≠ 0xFF ∧ fetched.reg 1 = fetched.reg 2 ∧
    (fetched fun s => s.setReg 1 1).reg 1 ≠ (fetched fun s => s.setReg 1 1).reg 2 := by decide

theorem test_witness_SkipsOnRegisters :
    opField 0x5121 = 0x5 ∧ nField 0x5121 ≠ 0 ∧ opField 0x912F = 0x9 ∧ nField 0x912F ≠ 0 := by decide

theorem test_witness_AddSetsCarry :
    255 < ((fetched (regs 0 0xFF 1 1)).reg 0).toNat + ((fetched (regs 0 0xFF 1 1)).reg 1).toNat ∧
    ((fetched (regs 0 0xFE 1 1)).reg 0).toNat + ((fetched (regs 0 0xFE 1 1)).reg 1).toNat ≤ 255 ∧ (0 : Reg) ≠ 15 := by
  decide
theorem test_witness_SubtractionsSetNoBorrow :
    ((fetched (regs 0 7 1 7)).reg 1).toNat ≤ ((fetched (regs 0 7 1 7)).reg 0).toNat ∧
    ((fetched (regs 0 6 1 7)).reg 0).toNat < ((fetched (regs 0 6 1 7)).reg 1).toNat ∧ (0 : Reg) ≠ 15 := by decide
theorem test_witness_RandomByteIsMasked :
    (fetched (rolls [0xA7])).inputs.rand.pending = 0xA7 :: [] := rfl
theorem test_witness_IndexRegisterWrites :
    0xFFFF < ((fetched fun s => (s.setReg 0 0xFF).setI 0xFF01).i).toNat +
      ((fetched fun s => (s.setReg 0 0xFF).setI 0xFF01).reg 0).toNat ∧
    ((fetched fun s => (s.setReg 0 0xFF).setI 0xFF00).i).toNat +
      ((fetched fun s => (s.setReg 0 0xFF).setI 0xFF00).reg 0).toNat ≤ 0xFFFF := by decide
theorem test_witness_DecimalDigitsAreStored :
    (fetched fun s => s.setI 0xFFD).mem.wf ∧ (fetched fun s => s.setI 0xFFD).dataAddr 2 < 4096 ∧
    4096 ≤ (fetched fun s => s.setI 0xFFE).dataAddr 2 := by decide
/-- For RegistersAreStored, RegistersAreLoaded and StoreThenLoadRestoresRegisters. -/
theorem test_witness_RegistersAreStored :
    (fetched fun s => s.setI 0xFF0).mem.wf ∧ (fetched fun s => s.setI 0xFF0).dataAddr (15 : Reg).val < 4096 ∧
    4096 ≤ (fetched fun s => s.setI 0xFF1).dataAddr (15 : Reg).val ∧
    (fetched fun s => s.setI 0xFFF).dataAddr (0 : Reg).val < 4096 := by decide
/-- The state `u` may have other registers: here those of reset, where the store saved V0 = 9. -/
theorem test_witness_StoreThenLoadRestoresRegisters :
    ∃ s t u : State, s.mem.wf ∧ s.dataAddr (0 : Reg).val < 4096 ∧ exec (.store 0) s = .next t ∧ u.mem = t.mem ∧ u.i = t.i ∧
      u.reg 0 ≠ s.reg 0 :=
  ⟨fetched fun s => (s.setReg 0 9).setI 0xFFF, _, fetched fun s => { s with i := 0xFFF, mem := [(0xFFF, 9)] }, by decide,
    by decide, rfl, by decide, by decide, by decide⟩
theorem test_witness_ClearUnlightsEveryPixel :
    fetched.ioDraw 0 = false ∧ (fetched (io [true])).ioDraw 0 = true := by decide
theorem test_witness_DrawInstruction :
    (0 < (0 : BitVec 4).toNat → (fetched fun s => s.setI 0xFFFF).dataAddr ((0 : BitVec 4).toNat - 1) < 4096) ∧
    (0 < (15 : BitVec 4).toNat → (fetched fun s => s.setI 0xFF1).dataAddr ((15 : BitVec 4).toNat - 1) < 4096) ∧
    0 < (15 : BitVec 4).toNat ∧ 4096 ≤ (fetched fun s => s.setI 0xFF2).dataAddr ((15 : BitVec 4).toNat - 1) ∧
    fetched.ioDraw 0 = false ∧ (fetched (io [true])).ioDraw 0 = true := by decide
/-- For DrawTurnsTheSpritesPixels and DoubleDrawRestoresBitmap. -/
theorem test_witness_DrawTurnsTheSpritesPixels : (List.replicate 15 (0xFF : Byte)).length ≤ 15 := by decide

theorem test_witness_KeySkips :
    (fetched.reg 0).toNat = (0 : Key).val ∧ ((fetched fun s => s.setReg 0 15).reg 0).toNat = (15 : Key).val ∧
    16 ≤ ((fetched fun s => s.setReg 0 16).reg 0).toNat ∧ 16 ≤ ((fetched fun s => s.setReg 0 255).reg 0).toNat := by decide
theorem test_witness_KeyWait :
    (fetched fun s => { s with newKey := some 15 }).newKey = some 15 ∧ fetched.newKey = none := by decide
theorem test_witness_KeyWaitTakesOneCyclePerTry :
    (start 0xF30A).status = .running ∧ (start 0xF30A).stopInput = false ∧ (start 0xF30A).pc.toNat + 1 < 4096 ∧
    decodeWord ((start 0xF30A).wordAt (start 0xF30A).pc.toNat) = .ok (.ldVxK 3) ∧ (start 0xF30A).newKey = none ∧
    (∀ k < 2, (start 0xF30A).ioDraw k = false) ∧ (start 0xF30A).tickInput = false ∧
    (start 0xF30A ticking).tickInput = true := by decide
theorem test_witness_TimerWriteThenTick :
    (start 0xF115 ticking).status = .running ∧ (start 0xF115 ticking).stopInput = false ∧
    (start 0xF115 ticking).pc.toNat + 1 < 4096 ∧ (start 0xF115 ticking).tickInput = true ∧
    (∀ k < 2, (start 0xF115 ticking).ioDraw k = false) ∧
    decodeWord ((start 0xF115 ticking).wordAt (start 0xF115 ticking).pc.toNat) = .ok (.ldDtVx 1) ∧
    decodeWord ((start 0xF118 ticking).wordAt (start 0xF118 ticking).pc.toNat) = .ok (.ldStVx 1) ∧
    decodeWord ((start 0xF107 ticking).wordAt (start 0xF107 ticking).pc.toNat) = .ok (.ldVxDt 1) := by decide
theorem test_witness_ParkedCoreStaysParked :
    Parked (start 0x1200) ∧ (start 0x1200).stopInput = false ∧ (∀ k < 2, (start 0x1200).ioDraw k = false) ∧
    (start 0x1200).tickInput = false ∧ (start 0x1200 ticking).tickInput = true :=
  ⟨⟨rfl, by decide, 0x200, by decide, by decide⟩, by decide, by decide, by decide, by decide⟩
/-- R329: CPU_HZ of 60 is the least; the statement's condition holds for j = 1 in cycle 1. -/
theorem test_witness_ReferenceScheduleTicks : 60 ≤ 60 ∧ 1 ≤ 1 ∧ 1 = (1 * 60 + 59) / 60 := by decide

end Sys2Proof.Tests
end

/-! What an instruction keeps of the state, whichever it is: the stack, canonical memory, the due times and the range of
PC. Then the invariant of a run, and the rules of spec/10_state.md on who writes what. -/

namespace Sys2Proof.Machine

/-! ### What `exec` answers -/

/-- The bounds check of `Dxyn` passes, or raises `MemoryBounds` (R64). -/
theorem State.checkSprite_cases (s : State) (n : Nat) :
    s.checkSprite n = .ok () ∨ ∃ k, s.checkSprite n = .error (.raise k) := by
  unfold State.checkSprite
  by_cases hn : n = 0
  · exact .inl (if_pos hn)
  · rw [if_neg hn]
    rcases checkLast_cases (s.dataAddr (n - 1)) .read with ⟨-, e⟩ | ⟨-, e⟩
    · exact .inl e
    · exact .inr ⟨_, e⟩

/-- `exec` answers a next state, but for a call or a return with SP above 16 (R31). -/
theorem exec_answers (i : Instr) (s : State) :
    (∃ t, exec i s = .next t) ∨ (16 < s.sp.toNat ∧ exec i s = .fault .stackPointerOutOfRange) := by
  cases i
  case ret =>
    simp only [exec, execRet]
    rcases s.pop_cases with ⟨-, e⟩ | ⟨_, -, e⟩ | ⟨h, e⟩ <;> rw [e]
    · exact .inl ⟨_, rfl⟩
    · exact .inl ⟨_, rfl⟩
    · exact .inr ⟨h, rfl⟩
  case call =>
    simp only [exec, execCall]
    rcases s.push_cases s.pc with ⟨_, e⟩ | ⟨-, e⟩ | ⟨h, e⟩ <;> rw [e]
    · exact .inl ⟨_, rfl⟩
    · exact .inl ⟨_, rfl⟩
    · exact .inr ⟨h, rfl⟩
  case drw x y n =>
    simp only [exec, execDrw]
    rcases s.checkSprite_cases (countOperand n) with e | ⟨k, e⟩ <;> rw [e] <;> exact .inl ⟨_, rfl⟩
  case skp x =>
    simp only [exec, execSkp]
    rcases keyIndex_cases (s.reg x) with ⟨_, e⟩ | ⟨-, e⟩ <;> rw [e] <;> exact .inl ⟨_, rfl⟩
  case sknp x =>
    simp only [exec, execSknp]
    rcases keyIndex_cases (s.reg x) with ⟨_, e⟩ | ⟨-, e⟩ <;> rw [e] <;> exact .inl ⟨_, rfl⟩
  case ldVxK x =>
    simp only [exec, execLdVxK, State.takeNewKey]
    cases s.newKey <;> exact .inl ⟨_, rfl⟩
  case ldB x =>
    simp only [exec, execLdB]
    rcases s.storeBlock_cases (decimalDigits (s.reg x)) with ⟨-, e⟩ | ⟨-, e⟩ <;> rw [e] <;> exact .inl ⟨_, rfl⟩
  case store x =>
    simp only [exec, execStore]
    rcases s.storeBlock_cases (s.regsUpTo x) with ⟨-, e⟩ | ⟨-, e⟩ <;> rw [e] <;> exact .inl ⟨_, rfl⟩
  case load x =>
    simp only [exec, execLoad]
    rcases checkLast_cases (s.dataAddr x.val) .read with ⟨-, e⟩ | ⟨-, e⟩ <;> rw [e] <;> exact .inl ⟨_, rfl⟩
  all_goals exact .inl ⟨_, rfl⟩

/-! ### What `exec` keeps -/

/-- Every instruction but `00EE` and `2nnn` keeps SP and the stack (R32). -/
theorem exec_keeps_stack {i : Instr} {s t : State} (h : exec i s = .next t) (hret : i ≠ .ret)
    (hcall : ∀ nnn, i ≠ .call nnn) : t.sp = s.sp ∧ t.stack = s.stack := by
  replace h := exec_next h
  cases i
  case ret => exact absurd rfl hret
  case call => exact absurd rfl (hcall _)
  case cls | ldB | store | load => rcases h with ⟨-, rfl⟩ | ⟨-, rfl⟩ <;> simp
  case skp | sknp => rcases h with ⟨-, rfl⟩ | ⟨_, rfl⟩ <;> simp
  case ldVxK => rcases h with ⟨_, -, rfl⟩ | ⟨-, rfl⟩ <;> simp
  case drw => rcases h with ⟨-, -, rfl⟩ | ⟨-, _, -, ⟨-, rfl⟩ | ⟨-, rfl⟩⟩ <;> simp
  all_goals
    obtain rfl := h
    simp

/-- No instruction changes a due time (R324, R328: the poll and the tick do). -/
theorem exec_keeps_dueTimes {i : Instr} {s t : State} (h : exec i s = .next t) :
    t.instrDue = s.instrDue ∧ t.timerDue = s.timerDue := by
  replace h := exec_next h
  cases i
  case cls | ldB | store | load => rcases h with ⟨-, rfl⟩ | ⟨-, rfl⟩ <;> simp
  case ret => rcases h with ⟨-, rfl⟩ | ⟨_, -, rfl⟩ <;> simp
  case call => rcases h with ⟨-, rfl⟩ | ⟨_, rfl⟩ <;> simp
  case skp | sknp => rcases h with ⟨-, rfl⟩ | ⟨_, rfl⟩ <;> simp
  case ldVxK => rcases h with ⟨_, -, rfl⟩ | ⟨-, rfl⟩ <;> simp
  case drw => rcases h with ⟨-, -, rfl⟩ | ⟨-, _, -, ⟨-, rfl⟩ | ⟨-, rfl⟩⟩ <;> simp
  all_goals
    obtain rfl := h
    simp

/-- Every instruction but `Fx33` and `Fx55` keeps memory (R61). -/
theorem exec_keeps_mem {i : Instr} {s t : State} (h : exec i s = .next t) (hldB : ∀ x, i ≠ .ldB x)
    (hstore : ∀ x, i ≠ .store x) : t.mem = s.mem := by
  replace h := exec_next h
  cases i
  case ldB => exact absurd rfl (hldB _)
  case store => exact absurd rfl (hstore _)
  case ret => rcases h with ⟨-, rfl⟩ | ⟨_, -, rfl⟩ <;> simp
  case call => rcases h with ⟨-, rfl⟩ | ⟨_, rfl⟩ <;> simp
  case cls | load => rcases h with ⟨-, rfl⟩ | ⟨-, rfl⟩ <;> simp
  case skp | sknp => rcases h with ⟨-, rfl⟩ | ⟨_, rfl⟩ <;> simp
  case ldVxK => rcases h with ⟨_, -, rfl⟩ | ⟨-, rfl⟩ <;> simp
  case drw => rcases h with ⟨-, -, rfl⟩ | ⟨-, _, -, ⟨-, rfl⟩ | ⟨-, rfl⟩⟩ <;> simp
  all_goals
    obtain rfl := h
    simp

/-- Every instruction keeps the canonical form of memory: a store whose last byte is outside memory writes nothing (R64). -/
theorem exec_keeps_mem_wf {i : Instr} {s t : State} (h : exec i s = .next t) (hs : s.mem.wf) : t.mem.wf := by
  have hn := exec_next h
  cases i
  case ldB x =>
    rcases hn with ⟨-, rfl⟩ | ⟨hb, rfl⟩
    · exact hs
    · exact Memory.writeRange_wf hs (bs := decimalDigits (s.reg x)) hb
  case store x =>
    rcases hn with ⟨-, rfl⟩ | ⟨hb, rfl⟩
    · exact hs
    · refine Memory.writeRange_wf hs ?_
      rw [State.regsUpTo_length]
      exact hb
  all_goals
    rw [exec_keeps_mem h (by simp) (by simp)]
    exact hs

/-! ### The range of PC (R28) -/

theorem addrOperand_le (nnn : BitVec 12) : (addrOperand nnn).toNat ≤ 0xFFF := by
  simp only [addrOperand, BitVec.toNat_setWidth]
  omega

/-- The largest target of `Bnnn` is 0xFF + 0xFFF, the bound of R28. -/
theorem wordOperand_add_addrOperand_le (b : Byte) (nnn : BitVec 12) :
    (wordOperand b + addrOperand nnn).toNat ≤ pcBound := by
  have hb : (wordOperand b).toNat ≤ 0xFF := by
    simp only [wordOperand, BitVec.toNat_setWidth]
    omega
  have hn := addrOperand_le nnn
  rw [BitVec.toNat_add, pcBound]
  omega

theorem State.skipIf_pc_le {s : State} (hpc : s.pc.toNat ≤ 0x1000) (c : Bool) :
    (s.skipIf c).pc.toNat ≤ pcBound := by
  rw [State.skipIf_pc, pcBound]
  split_ifs <;> bv_omega

/-- From a PC that a fetch left, an instruction leaves PC in the range of R28. -/
theorem exec_pc_le {i : Instr} {s t : State} (hs : Inv s) (hlo : 2 ≤ s.pc.toNat) (hhi : s.pc.toNat ≤ 0x1000)
    (h : exec i s = .next t) : t.pc.toNat ≤ pcBound := by
  replace h := exec_next h
  have hpc := hs.programCounter
  have hjump (nnn : BitVec 12) : (addrOperand nnn).toNat ≤ pcBound := Nat.le_trans (addrOperand_le nnn) (by decide)
  cases i
  case jp nnn =>
    obtain rfl := h
    exact hjump nnn
  case jpV0 nnn =>
    obtain rfl := h
    exact wordOperand_add_addrOperand_le _ nnn
  case call nnn =>
    rcases h with ⟨-, rfl⟩ | ⟨_, rfl⟩
    · exact hpc
    · exact hjump nnn
  case ret =>
    rcases h with ⟨-, rfl⟩ | ⟨hlt, hpos, rfl⟩
    · exact hpc
    · exact Nat.le_trans (hs.returnAddresses ⟨_, hlt⟩ (Nat.sub_lt hpos Nat.one_pos)) (by decide)
  case seImm | sneImm | seReg | sneReg =>
    obtain rfl := h
    exact State.skipIf_pc_le hhi _
  case skp | sknp =>
    rcases h with ⟨-, rfl⟩ | ⟨_, rfl⟩
    · exact hpc
    · exact State.skipIf_pc_le hhi _
  case ldVxK =>
    rcases h with ⟨_, -, rfl⟩ | ⟨-, rfl⟩
    · exact hpc
    · rw [State.setPc_pc, BitVec.toNat_sub_of_le hlo]
      exact Nat.le_trans (Nat.sub_le ..) hpc
  case cls | ldB | store => rcases h with ⟨-, rfl⟩ | ⟨-, rfl⟩ <;> exact hpc
  case load => rcases h with ⟨-, rfl⟩ | ⟨-, rfl⟩ <;> simpa using hpc
  case drw => rcases h with ⟨-, -, rfl⟩ | ⟨-, _, -, ⟨-, rfl⟩ | ⟨-, rfl⟩⟩ <;> exact hpc
  all_goals
    obtain rfl := h
    exact hpc

/-! ### The stack (R28, R31) -/

/-- SP at most 16, and every occupied entry at most 0x1000 (R28, R31). -/
structure StackInv (s : State) : Prop where
  stackPointer : s.sp.toNat ≤ Config.stackDepth
  returnAddresses : ∀ k : Fin 16, k.val < s.sp.toNat → s.stack[k.val].toNat ≤ 0x1000

theorem Inv.stackInv {s : State} (hs : Inv s) : StackInv s := ⟨hs.stackPointer, hs.returnAddresses⟩

/-- What neither SP nor the stack depends on keeps it. -/
theorem StackInv.of_same {s t : State} (hs : StackInv s) (hsp : t.sp = s.sp) (hstack : t.stack = s.stack) :
    StackInv t := by
  obtain ⟨hle, hret⟩ := hs
  constructor
  · rwa [hsp]
  · simpa only [hsp, hstack] using hret

theorem StackInv.pop {s t : State} (hs : StackInv s) (hpos : 0 < s.sp.toNat) (hsp : t.sp = s.sp - 1)
    (hstack : t.stack = s.stack) : StackInv t := by
  obtain ⟨hle, hret⟩ := hs
  have hsp' : t.sp.toNat = s.sp.toNat - 1 := by
    rw [hsp]
    exact BitVec.toNat_sub_of_le hpos
  constructor
  · omega
  · intro k hk
    simpa only [hstack] using hret k (by omega)

theorem StackInv.push {s t : State} (hs : StackInv s) (hlt : s.sp.toNat < 16) {w : Word} (hw : w.toNat ≤ 0x1000)
    (hsp : t.sp = s.sp + 1) (hstack : t.stack = s.stack.set s.sp.toNat w) : StackInv t := by
  obtain ⟨hle, hret⟩ := hs
  have hsp' : t.sp.toNat = s.sp.toNat + 1 := by
    rw [hsp]
    bv_omega
  constructor
  · rw [hsp', Config.stackDepth]
    exact hlt
  · intro k hk
    simp only [hstack]
    rw [Vector.getElem_set]
    split_ifs with hks
    · exact hw
    · exact hret k (by omega)

theorem exec_keeps_stackInv {i : Instr} {s t : State} (hs : StackInv s) (hhi : s.pc.toNat ≤ 0x1000)
    (h : exec i s = .next t) : StackInv t := by
  by_cases hret : i = .ret
  · subst hret
    rcases exec_next h with ⟨-, rfl⟩ | ⟨-, hpos, rfl⟩
    · exact hs.of_same rfl rfl
    · exact hs.pop hpos rfl rfl
  by_cases hcall : ∃ nnn, i = .call nnn
  · obtain ⟨nnn, rfl⟩ := hcall
    rcases exec_next h with ⟨-, rfl⟩ | ⟨hlt, rfl⟩
    · exact hs.of_same rfl rfl
    · exact hs.push hlt hhi rfl rfl
  obtain ⟨hsp, hstack⟩ := exec_keeps_stack h hret (not_exists.mp hcall)
  exact hs.of_same hsp hstack

/-! ### The invariant -/

/-- A change of what the invariant does not read, of PC within its range, or of a due time to a later one keeps it. -/
theorem Inv.of_same {s t : State} (hs : Inv s) (hmem : t.mem = s.mem) (hsp : t.sp = s.sp) (hstack : t.stack = s.stack)
    (hpc : t.pc.toNat ≤ pcBound) (hinstr : s.instrDue ≤ t.instrDue) (htimer : s.timerDue ≤ t.timerDue) : Inv t where
  memory := hmem ▸ hs.memory
  stackPointer := (hs.stackInv.of_same hsp hstack).stackPointer
  programCounter := hpc
  returnAddresses := (hs.stackInv.of_same hsp hstack).returnAddresses
  dueTimes := ⟨Nat.le_trans hs.dueTimes.1 hinstr, Nat.le_trans hs.dueTimes.2 htimer⟩

theorem exec_keeps_inv {i : Instr} {s t : State} (hs : Inv s) (hlo : 2 ≤ s.pc.toNat) (hhi : s.pc.toNat ≤ 0x1000)
    (h : exec i s = .next t) : Inv t := by
  have hstack := exec_keeps_stackInv hs.stackInv hhi h
  obtain ⟨hinstr, htimer⟩ := exec_keeps_dueTimes h
  exact {
    memory := exec_keeps_mem_wf h hs.memory
    stackPointer := hstack.stackPointer
    programCounter := exec_pc_le hs hlo hhi h
    returnAddresses := hstack.returnAddresses
    dueTimes := by rw [hinstr, htimer]; exact hs.dueTimes }

/-- The advance past a word that fetch can read does not wrap (R63, R91). -/
theorem State.advance_pc_toNat {s : State} (hpc : s.pc.toNat + 1 < Config.memSize) :
    s.advance.pc.toNat = s.pc.toNat + 2 := by
  rw [Config.memSize] at hpc
  rw [State.advance_pc]
  bv_omega

theorem dispatch_keeps_inv {s t : State} (hs : Inv s) (h : dispatch s = .next t) : Inv t := by
  have hadvance (hpc : s.pc.toNat + 1 < Config.memSize) :
      Inv s.advance ∧ 2 ≤ s.advance.pc.toNat ∧ s.advance.pc.toNat ≤ 0x1000 := by
    have hpc' := State.advance_pc_toNat hpc
    rw [Config.memSize] at hpc
    exact ⟨hs.of_same rfl rfl rfl (by rw [hpc', pcBound]; omega) (Nat.le_refl _) (Nat.le_refl _), by omega, by omega⟩
  rcases dispatch_cases s with ⟨-, e⟩ | ⟨hpc, -, e⟩ | ⟨hpc, i, -, e⟩
  · injection e.symm.trans h with ht
    subst ht
    exact hs.of_same rfl rfl rfl hs.programCounter (Nat.le_refl _) (Nat.le_refl _)
  · injection e.symm.trans h with ht
    subst ht
    obtain ⟨ha, -, -⟩ := hadvance hpc
    exact ha.of_same rfl rfl rfl ha.programCounter (Nat.le_refl _) (Nat.le_refl _)
  · obtain ⟨ha, hlo, hhi⟩ := hadvance hpc
    exact exec_keeps_inv ha hlo hhi (e.symm.trans h)

/-- The tick and the poll keep the invariant: they only move the due times on (R324, R328). -/
theorem Inv.afterDispatch {s : State} (hs : Inv s) (ia : Word) : Inv (s.afterDispatch ia) :=
  hs.of_same (s.afterDispatch_mem ia) (s.afterDispatch_sp ia) (s.afterDispatch_stack ia)
    (by rw [s.afterDispatch_pc]; exact hs.programCounter) (s.afterDispatch_instrDue_ge ia) (s.afterDispatch_timerDue_ge ia)

theorem Inv.beginCycle {s : State} (hs : Inv s) : Inv s.beginCycle :=
  hs.of_same rfl rfl rfl hs.programCounter (Nat.le_refl _) (Nat.le_refl _)

theorem step_keeps_inv {s t : State} (hs : Inv s) (h : step s = .next t) : Inv t := by
  obtain ⟨-, ⟨-, rfl⟩ | ⟨-, u, hu, rfl⟩⟩ := step_next_cases h
  · exact hs.of_same rfl rfl rfl hs.programCounter (Nat.le_refl _) (Nat.le_refl _)
  · exact (dispatch_keeps_inv hs.beginCycle hu).afterDispatch s.pc

/-- Settles O18: by the frame of each instruction, then of the tick and the poll. -/
theorem stepKeepsInvariant : Obligations.StepKeepsInvariant :=
  fun _ _ => step_keeps_inv

/-- Settles O21: only a call or a return with SP above 16 answers anything but a next state, and that is no refusal. -/
theorem everyInstructionAnswersNext : Obligations.EveryInstructionAnswersNext := by
  unfold Obligations.EveryInstructionAnswersNext
  refine ⟨fun i s hsp => ?_, fun i s r hr => ?_⟩
  · rcases exec_answers i s with ht | ⟨hlt, -⟩
    · exact ht
    · exact absurd hsp (Nat.not_le_of_lt hlt)
  · rcases exec_answers i s with ⟨t, ht⟩ | ⟨-, hf⟩
    · cases ht.symm.trans hr
    · cases hf.symm.trans hr

/-- Settles O25: every other instruction keeps both (`exec_keeps_stack`). -/
theorem onlyCallAndReturnTouchStack : Obligations.OnlyCallAndReturnTouchStack := by
  unfold Obligations.OnlyCallAndReturnTouchStack
  intro i s t h hne
  by_contra hi
  obtain ⟨hret, hcall⟩ := not_or.mp hi
  obtain ⟨hsp, hstack⟩ := exec_keeps_stack h hret (not_exists.mp hcall)
  exact hne.elim (absurd hsp) (absurd hstack)

/-! ### VF (R23, R29) -/

/-- A register write changes no register but its own. -/
theorem State.eq_of_reg_setReg_ne {s : State} {x y : Reg} {b : Byte} (h : (s.setReg x b).reg y ≠ s.reg y) : x = y := by
  by_contra hxy
  exact h (s.reg_setReg_of_ne b (Ne.symm hxy))

/-- A load changes no register above its last. -/
theorem State.le_of_reg_loadRegs_ne {s : State} {x y : Reg} (h : (s.loadRegs x).reg y ≠ s.reg y) : y ≤ x := by
  by_contra hxy
  exact h (by rw [State.reg_loadRegs, if_neg hxy])

/-- Settles O27: the flag writers are named, a register write that changes VF has it as its destination, and the other
instructions keep every register. -/
theorem flagWriters : Obligations.FlagWriters := by
  unfold Obligations.FlagWriters
  intro i s t h hne
  replace h := exec_next h
  have hv : t.v ≠ s.v := fun e => hne (State.reg_eq_of_v e 15)
  cases i
  case addReg | subReg | shr | subn | shl | drw | addI => simp
  case ldImm | addImm | ldReg | orReg | andReg | xorReg | ldVxDt =>
    obtain rfl := h
    obtain rfl := State.eq_of_reg_setReg_ne hne
    simp
  case rnd =>
    obtain rfl := h
    obtain rfl := State.eq_of_reg_setReg_ne (s := s.takeRand.2) hne
    simp
  case ldVxK =>
    rcases h with ⟨k, -, rfl⟩ | ⟨-, rfl⟩
    · obtain rfl := State.eq_of_reg_setReg_ne (s := s.takeNewKey.2) hne
      simp
    · exact absurd rfl hv
  case load x =>
    rcases h with ⟨-, rfl⟩ | ⟨-, rfl⟩
    · exact absurd rfl hv
    · obtain rfl : x = 15 := Fin.last_le_iff.mp (State.le_of_reg_loadRegs_ne hne)
      simp
  case cls | ldB | store => rcases h with ⟨-, rfl⟩ | ⟨-, rfl⟩ <;> exact absurd rfl hv
  case ret => rcases h with ⟨-, rfl⟩ | ⟨_, -, rfl⟩ <;> exact absurd rfl hv
  case call => rcases h with ⟨-, rfl⟩ | ⟨_, rfl⟩ <;> exact absurd rfl hv
  case skp | sknp => rcases h with ⟨-, rfl⟩ | ⟨_, rfl⟩ <;> simp at hv
  all_goals
    obtain rfl := h
    simp at hv

/-! ### The run state and reset (R38, R40) -/

/-- Settles O11: `cycle` by the run state, and the inversion of a step that answers a next state. -/
theorem noCycleOutsideRunning : Obligations.NoCycleOutsideRunning := by
  unfold Obligations.NoCycleOutsideRunning
  intro s
  refine ⟨fun hs => ?_, fun r hs => ?_, fun t h => ?_⟩
  · simp only [step, cycle, hs]
  · simp only [step, cycle, hs]
  · obtain ⟨hrun, -⟩ := step_next_cases h
    exact hrun

/-- Settles O16, field by field. -/
theorem resetLeavesZeroes : Obligations.ResetLeavesZeroes := by
  unfold Obligations.ResetLeavesZeroes
  refine ⟨fun x => ?_, rfl, rfl, rfl, fun k => ?_, rfl, rfl, fun a _ => rfl, rfl, Framebuffer.lit_blank, fun k => ?_, rfl,
    ?_, ?_⟩
  · simp [State.reset, State.reg]
  · simp [State.reset]
  · simp [State.reset, State.keyHeld]
  · simp [State.reset, State.nextInstrDue]
  · simp [State.reset, State.nextTimerDue, Config.timerHz]

end Sys2Proof.Machine

/-! The rules of spec/20_memory.md: what a fetch checks and reads (R63, R67), and which instructions write memory (R61, R64). -/

namespace Sys2Proof.Machine

/-! ### Fetch (R63, R67) -/

/-- The byte at the lower address is the high byte of the word (R67). -/
theorem toNat_wordOfBytes (hi lo : Byte) : (wordOfBytes hi lo).toNat = hi.toNat * 256 + lo.toNat := by
  have hhi : hi.toNat <<< 8 < 2 ^ 16 := by rw [Nat.shiftLeft_eq]; omega
  rw [wordOfBytes, BitVec.toNat_or, BitVec.toNat_shiftLeft, BitVec.toNat_setWidth_of_le (by decide),
    BitVec.toNat_setWidth_of_le (by decide), Nat.mod_eq_of_lt hhi, ← Nat.shiftLeft_add_eq_or_of_lt lo.isLt, Nat.shiftLeft_eq]

/-- A dispatch that ends the run ends the cycle: no tick and no poll follow (R300). -/
theorem step_of_dispatch_ended {s t : State} (hs : s.status = .running) (hstop : s.stopInput = false)
    (hd : dispatch s.beginCycle = .next t) (ht : t.status ≠ .running) : step s = .next t := by
  rw [step_running hs hstop, runCycle, hd]
  exact congrArg _ (State.afterDispatch_ended _ ht)

/-- A fault raised at the start of a cycle changes the run state, besides the stop draw and the record of port calls. -/
theorem beginCycle_raise_onlyChanges (s : State) (ia : Word) (k : FaultKind) :
    OnlyChanges [.status, .stopInput, .calls] s (s.beginCycle.raise ia k) := by
  intro p hp
  cases p
  case status | stopInput | calls => simp at hp
  all_goals rfl

/-- Settles O8: a fetch past memory raises before PC is advanced, and that ends the cycle. -/
theorem fetchChecksBothBytes : Obligations.FetchChecksBothBytes := by
  unfold Obligations.FetchChecksBothBytes
  refine ⟨fun s hs hstop hpc => ?_, fun s hpc => ?_⟩
  · rcases dispatch_cases s.beginCycle with ⟨-, hd⟩ | ⟨hlt, -⟩ | ⟨hlt, -⟩
    · exact ⟨_, step_of_dispatch_ended hs hstop hd (by simp), rfl, rfl, beginCycle_raise_onlyChanges s _ _⟩
    · exact absurd hlt (Nat.not_lt_of_le hpc)
    · exact absurd hlt (Nat.not_lt_of_le hpc)
  · rcases s.fetch_cases with ⟨-, hf⟩ | ⟨hge, -⟩
    · exact ⟨_, hf, toNat_wordOfBytes ..⟩
    · exact absurd hpc (Nat.not_lt_of_le hge)

/-! ### The writers of memory (R61, R64) -/

/-- A byte that writing a block changed lies in the block. -/
theorem Memory.mem_block_of_read_ne {m : Memory} {a b : Nat} {bs : List Byte}
    (h : (m.writeRange a bs).read b ≠ m.read b) : a ≤ b ∧ b < a + bs.length := by
  by_contra hout
  exact h (m.read_writeRange_outside (by omega))

/-- Settles O24: a store checks the last address of its block, then writes that block alone; every other instruction keeps
memory (`exec_keeps_mem`). -/
theorem onlyStoresWriteMemory : Obligations.OnlyStoresWriteMemory := by
  unfold Obligations.OnlyStoresWriteMemory
  intro i s t a h hne
  have hn := exec_next h
  cases i
  case ldB x =>
    rcases hn with ⟨-, rfl⟩ | ⟨hb, rfl⟩
    · exact absurd rfl hne
    · obtain ⟨hlo, hhi⟩ := Memory.mem_block_of_read_ne hne
      have hlast : a ≤ s.dataAddr 2 := Nat.le_of_lt_succ hhi
      exact ⟨x, .inl ⟨rfl, hlast⟩, hlo, Nat.lt_of_le_of_lt hlast hb⟩
  case store x =>
    rcases hn with ⟨-, rfl⟩ | ⟨hb, rfl⟩
    · exact absurd rfl hne
    · obtain ⟨hlo, hhi⟩ := Memory.mem_block_of_read_ne hne
      rw [State.regsUpTo_length] at hhi
      have hlast : a ≤ s.dataAddr x.val := Nat.le_of_lt_succ hhi
      exact ⟨x, .inr ⟨rfl, hlast⟩, hlo, Nat.lt_of_le_of_lt hlast hb⟩
  all_goals exact absurd (congrArg (·.read a) (exec_keeps_mem h (by simp) (by simp))) hne

end Sys2Proof.Machine

/-! The rules of spec/30_encoding.md: the decoder and the encoder are each other's inverse (R90 to R94), the decoder is the
table (R95 to R98), and a step runs what it decodes (R91). -/

namespace Sys2Proof

/-! ### Decoding what the encoder wrote (R92, R94) -/

@[simp] theorem decodeWord_encode (i : Instr) : decodeWord (encode i) = .ok i := by
  cases i
  case cls | ret => rfl
  case jp | call | ldI | jpV0 => simp [encode, decodeWord]
  case seImm | sneImm | ldImm | addImm | rnd => simp [encode, decodeWord]
  case seReg | sneReg | drw => simp [encode, decodeWord]
  case ldReg | orReg | andReg | xorReg | addReg | subReg | shr | subn | shl => simp [encode, decodeWord, decodeArith]
  case skp | sknp => simp [encode, decodeWord, decodeKeys]
  case ldVxDt | ldVxK | ldDtVx | ldStVx | addI | ldF | ldB | store | load => simp [encode, decodeWord, decodeMisc]

theorem decode_two_bytes_ok_iff (hi lo : Byte) (i : Instr) (rest : List Byte) :
    decode (hi :: lo :: rest) = .ok (i, rest) ↔ decodeWord (wordOfBytes hi lo) = .ok i := by
  rw [decode]
  cases decodeWord (wordOfBytes hi lo) <;> simp

/-- Settles O1: the two bytes make the word again, and each field of the word reads as it was written. -/
theorem decodeEncodeRoundTrip : Obligations.DecodeEncodeRoundTrip := by
  unfold Obligations.DecodeEncodeRoundTrip
  intro i rest
  refine (decode_two_bytes_ok_iff _ _ i rest).mpr ?_
  rw [wordOfBytes_highByte_lowByte, decodeWord_encode]

/-! ### Encoding what the decoder read (R92, R94)

In each format the fields cover the word, so the fields of a word, encoded in that format, give it back. -/

theorem ofFin_xField (w : Word) : BitVec.ofFin (w := 4) (xField w) = w.extractLsb' 8 4 := rfl
theorem ofFin_yField (w : Word) : BitVec.ofFin (w := 4) (yField w) = w.extractLsb' 4 4 := rfl

theorem encodeAddr_of_fields {w : Word} {op : BitVec 4} (hop : opField w = op) : encodeAddr op (nnnField w) = w := by
  subst hop
  ext i hi
  interval_cases i <;> simp [encodeAddr, opField, nnnField]

theorem encodeXNN_of_fields {w : Word} {op : BitVec 4} {nn : Byte} (hop : opField w = op) (hnn : nnField w = nn) :
    encodeXNN op (xField w) nn = w := by
  subst hop hnn
  ext i hi
  interval_cases i <;> simp [encodeXNN, opField, ofFin_xField, nnField]

theorem encodeXYN_of_fields {w : Word} {op n : BitVec 4} (hop : opField w = op) (hn : nField w = n) :
    encodeXYN op (xField w) (yField w) n = w := by
  subst hop hn
  ext i hi
  interval_cases i <;> simp [encodeXYN, opField, ofFin_xField, ofFin_yField, nField]

/-- What a decoder may answer for a word: an instruction whose encoding is the word, or that the word is illegal. -/
def DecodesFaithfully (w : Word) : Except DecodeError Instr → Prop
  | .ok i => encode i = w
  | .error e => e = .illegal w

theorem decodeFixed_faithful (w : Word) : DecodesFaithfully w (decodeFixed w) := by
  unfold decodeFixed
  split_ifs with hcls hret
  · exact hcls.symm
  · exact hret.symm
  · rfl

theorem decodeArith_faithful {w : Word} (hop : opField w = 0x8) : DecodesFaithfully w (decodeArith w) := by
  unfold decodeArith
  split
  case h_10 => rfl
  all_goals exact encodeXYN_of_fields hop ‹_›

theorem decodeKeys_faithful {w : Word} (hop : opField w = 0xE) : DecodesFaithfully w (decodeKeys w) := by
  unfold decodeKeys
  split
  case h_3 => rfl
  all_goals exact encodeXNN_of_fields hop ‹_›

theorem decodeMisc_faithful {w : Word} (hop : opField w = 0xF) : DecodesFaithfully w (decodeMisc w) := by
  unfold decodeMisc
  split
  case h_10 => rfl
  all_goals exact encodeXNN_of_fields hop ‹_›

theorem decodeWord_faithful (w : Word) : DecodesFaithfully w (decodeWord w) := by
  unfold decodeWord
  split
  case h_1 => exact decodeFixed_faithful w
  case h_2 hop | h_3 hop | h_11 hop | h_12 hop => exact encodeAddr_of_fields hop
  case h_4 hop | h_5 hop | h_7 hop | h_8 hop | h_13 hop => exact encodeXNN_of_fields hop rfl
  case h_6 hop | h_10 hop =>
    split_ifs with hn
    · exact encodeXYN_of_fields hop hn
    · rfl
  case h_9 hop => exact decodeArith_faithful hop
  case h_14 hop => exact encodeXYN_of_fields hop rfl
  case h_15 hop => exact decodeKeys_faithful hop
  case h_16 hop => exact decodeMisc_faithful hop
  case h_17 => rfl

theorem encode_of_decodeWord {w : Word} {i : Instr} (h : decodeWord w = .ok i) : encode i = w := by
  have hw := decodeWord_faithful w
  rwa [h] at hw

theorem eq_illegal_of_decodeWord {w : Word} {e : DecodeError} (h : decodeWord w = .error e) : e = .illegal w := by
  have hw := decodeWord_faithful w
  rwa [h] at hw

/-- Settles O2: in each format the fields cover the word. -/
theorem encodeDecodeRoundTrip : Obligations.EncodeDecodeRoundTrip :=
  fun _ _ => encode_of_decodeWord

/-! ### The illegal words (R98) -/

theorem decodeFixed_illegal_iff (w : Word) : decodeFixed w = .error (.illegal w) ↔ w ≠ 0x00E0 ∧ w ≠ 0x00EE := by
  unfold decodeFixed
  split_ifs <;> simp_all

theorem decodeArith_illegal_iff (w : Word) :
    decodeArith w = .error (.illegal w) ↔ nField w ∈ ([0x8, 0x9, 0xA, 0xB, 0xC, 0xD, 0xF] : List (BitVec 4)) := by
  have hrest : ∀ n : BitVec 4, n ∈ ([0x8, 0x9, 0xA, 0xB, 0xC, 0xD, 0xF] : List (BitVec 4)) ↔
      n ∉ ([0x0, 0x1, 0x2, 0x3, 0x4, 0x5, 0x6, 0x7, 0xE] : List (BitVec 4)) := by decide
  rw [hrest]
  unfold decodeArith
  split <;> simp_all

theorem decodeKeys_illegal_iff (w : Word) :
    decodeKeys w = .error (.illegal w) ↔ nnField w ∉ ([0x9E, 0xA1] : List Byte) := by
  unfold decodeKeys
  split <;> simp_all

theorem decodeMisc_illegal_iff (w : Word) :
    decodeMisc w = .error (.illegal w) ↔
      nnField w ∉ ([0x07, 0x0A, 0x15, 0x18, 0x1E, 0x29, 0x33, 0x55, 0x65] : List Byte) := by
  unfold decodeMisc
  split <;> simp_all

/-- The sixteen major opcodes. -/
theorem mem_nibbles : ∀ n : BitVec 4,
    n ∈ ([0x0, 0x1, 0x2, 0x3, 0x4, 0x5, 0x6, 0x7, 0x8, 0x9, 0xA, 0xB, 0xC, 0xD, 0xE, 0xF] : List (BitVec 4)) := by
  decide

/-- Settles O5: major opcode by major opcode, as the decoder splits them (R97). -/
theorem illegalWordsAreThoseListed : Obligations.IllegalWordsAreThoseListed := by
  unfold Obligations.IllegalWordsAreThoseListed
  intro w
  unfold decodeWord
  split
  case h_1 hop => simp [hop, decodeFixed_illegal_iff]
  case h_6 hop | h_10 hop => split_ifs <;> simp_all
  case h_9 hop =>
    rw [decodeArith_illegal_iff]
    simp [hop]
  case h_15 hop => simp [hop, decodeKeys_illegal_iff]
  case h_16 hop => simp [hop, decodeMisc_illegal_iff]
  case h_17 =>
    have hall := mem_nibbles (opField w)
    simp_all
  all_goals simp [*]

/-! ### The table (R95, R96) -/

/-- Two rows that a word matches agree on the bits that both masks fix. -/
theorem rows_agree_of_match {w : Word} {a b : Word × Word} (ha : w &&& a.1 = a.2) (hb : w &&& b.1 = b.2) :
    a.2 &&& b.1 = b.2 &&& a.1 := by
  rw [← ha, ← hb]
  ac_rfl

theorem opcodeTable_pairwise_differ : opcodeTable.Pairwise fun a b => a.2 &&& b.1 ≠ b.2 &&& a.1 := by
  decide

/-- Settles O4: any two rows differ in a bit that both masks fix. -/
theorem tableRowsAreDisjoint : Obligations.TableRowsAreDisjoint := by
  unfold Obligations.TableRowsAreDisjoint
  intro w
  exact opcodeTable_pairwise_differ.imp fun hne ⟨ha, hb⟩ => hne (rows_agree_of_match ha hb)

theorem row_eq_of_match {w : Word} {a b : Word × Word} (ha : a ∈ opcodeTable) (hb : b ∈ opcodeTable)
    (hwa : w &&& a.1 = a.2) (hwb : w &&& b.1 = b.2) : a = b := by
  by_contra hne
  have : Std.Symm fun a b : Word × Word => ¬ (w &&& a.1 = a.2 ∧ w &&& b.1 = b.2) := ⟨fun _ _ h => h ∘ And.symm⟩
  exact (tableRowsAreDisjoint w).forall ha hb hne ⟨hwa, hwb⟩

theorem row_mem_opcodeTable (i : Instr) : i.row ∈ opcodeTable := by
  cases i <;> simp [Instr.row, opcodeTable]

theorem encode_matches_row (i : Instr) : encode i &&& i.row.1 = i.row.2 := by
  cases i
  case cls | ret => rfl
  case jp | call | ldI | jpV0 => exact Laws.RowMatch.addr_mask rfl ..
  case seImm | sneImm | ldImm | addImm | rnd => exact Laws.RowMatch.xnn_mask rfl ..
  case drw => exact Laws.RowMatch.xyn_mask rfl ..
  case skp | sknp | ldVxDt | ldVxK | ldDtVx | ldStVx | addI | ldF | ldB | store | load =>
    exact Laws.RowMatch.x_mask rfl ..
  all_goals exact Laws.RowMatch.xy_mask rfl ..

@[simp] theorem opField_and (a b : Word) : opField (a &&& b) = opField a &&& opField b := by
  ext i hi
  simp [opField, show 12 + i < 16 by omega]

@[simp] theorem nField_and (a b : Word) : nField (a &&& b) = nField a &&& nField b := by
  ext i hi
  simp [nField, show i < 16 by omega]

@[simp] theorem nnField_and (a b : Word) : nnField (a &&& b) = nnField a &&& nnField b := by
  ext i hi
  simp [nnField, show i < 16 by omega]

/-- The mask of a row is all ones on each field that the decoder reads in the row's major opcode (R97). -/
theorem mask_fixes_decoded_fields {r : Word × Word} (hr : r ∈ opcodeTable) :
    opField r.1 = 0xF ∧ (opField r.2 = 0x0 → r.1 = 0xFFFF) ∧
    (opField r.2 ∈ ([0x5, 0x8, 0x9] : List (BitVec 4)) → nField r.1 = 0xF) ∧
    (opField r.2 ∈ ([0xE, 0xF] : List (BitVec 4)) → nnField r.1 = 0xFF) := by
  revert r
  simp [opcodeTable, opField, nField, nnField]

theorem decodeWord_match_isOk {r : Word × Word} (hr : r ∈ opcodeTable) : (decodeWord r.2).isOk = true :=
  List.all_eq_true.mp (by decide : opcodeTable.all fun r => (decodeWord r.2).isOk) r hr

/-- The fields of a word that a row fixes are those of the row's match. -/
theorem fields_of_match {w : Word} {r : Word × Word} (hr : r ∈ opcodeTable) (hw : w &&& r.1 = r.2) :
    opField w = opField r.2 ∧ (opField r.2 = 0x0 → w = r.2) ∧
    (opField r.2 ∈ ([0x5, 0x8, 0x9] : List (BitVec 4)) → nField w = nField r.2) ∧
    (opField r.2 ∈ ([0xE, 0xF] : List (BitVec 4)) → nnField w = nnField r.2) := by
  obtain ⟨hop, hfix, hn, hnn⟩ := mask_fixes_decoded_fields hr
  refine ⟨?_, fun h => ?_, fun h => ?_, fun h => ?_⟩
  · rw [← hw, opField_and, hop]
    exact BitVec.and_allOnes.symm
  · rw [← hw, hfix h]
    exact BitVec.and_allOnes.symm
  · rw [← hw, nField_and, hn h]
    exact BitVec.and_allOnes.symm
  · rw [← hw, nnField_and, hnn h]
    exact BitVec.and_allOnes.symm

/-- A word that matches a row is illegal only if the row's match is: the two agree in every field that R98 reads. -/
theorem match_illegal_of_illegal {w : Word} {r : Word × Word} (hr : r ∈ opcodeTable) (hw : w &&& r.1 = r.2)
    (h : decodeWord w = .error (.illegal w)) : decodeWord r.2 = .error (.illegal r.2) := by
  obtain ⟨hop, hfix, hn, hnn⟩ := fields_of_match hr hw
  by_cases h0 : opField r.2 = 0x0
  · rwa [← hfix h0]
  · have hlist := (illegalWordsAreThoseListed w).mp h
    rw [hop] at hlist
    refine (illegalWordsAreThoseListed r.2).mpr ?_
    rcases hlist with ⟨h0', -⟩ | ⟨h5, hl⟩ | ⟨h8, hl⟩ | ⟨h9, hl⟩ | ⟨hE, hl⟩ | ⟨hF, hl⟩
    · exact absurd h0' h0
    · exact .inr (.inl ⟨h5, hn (by simp [h5]) ▸ hl⟩)
    · exact .inr (.inr (.inl ⟨h8, hn (by simp [h8]) ▸ hl⟩))
    · exact .inr (.inr (.inr (.inl ⟨h9, hn (by simp [h9]) ▸ hl⟩)))
    · exact .inr (.inr (.inr (.inr (.inl ⟨hE, hnn (by simp [hE]) ▸ hl⟩))))
    · exact .inr (.inr (.inr (.inr (.inr ⟨hF, hnn (by simp [hF]) ▸ hl⟩))))

theorem matches_row_of_decodeWord {w : Word} {i : Instr} (h : decodeWord w = .ok i) : w &&& i.row.1 = i.row.2 := by
  rw [← encode_of_decodeWord h]
  exact encode_matches_row i

theorem decodeWord_of_match {w : Word} {r : Word × Word} (hr : r ∈ opcodeTable) (hw : w &&& r.1 = r.2) :
    ∃ i, decodeWord w = .ok i ∧ i.row = r := by
  cases hd : decodeWord w with
  | ok i => exact ⟨i, rfl, row_eq_of_match (row_mem_opcodeTable i) hr (matches_row_of_decodeWord hd) hw⟩
  | error e =>
    obtain rfl := eq_illegal_of_decodeWord hd
    have hok := decodeWord_match_isOk hr
    rw [match_illegal_of_illegal hr hw hd] at hok
    cases hok

/-- Settles O3: a match fixes the fields the decoder reads; a decoded word is an encoding, which matches its own row; and a
decoder that gives no instruction says illegal. -/
theorem decoderFollowsTable : Obligations.DecoderFollowsTable := by
  unfold Obligations.DecoderFollowsTable
  refine ⟨fun w r => decodeWord_of_match, fun w i h => ⟨row_mem_opcodeTable i, matches_row_of_decodeWord h⟩,
    fun w hnone => ?_⟩
  cases hd : decodeWord w with
  | ok i => exact absurd (matches_row_of_decodeWord hd) (hnone i.row (row_mem_opcodeTable i))
  | error e => rw [eq_illegal_of_decodeWord hd]

end Sys2Proof

namespace Sys2Proof.Machine

/-! ### A step runs what it decodes (R91, R322) -/

theorem dispatch_of_decodeWord {s : State} {i : Instr} (hpc : s.pc.toNat + 1 < Config.memSize)
    (hd : decodeWord (s.wordAt s.pc.toNat) = .ok i) : dispatch s = exec i s.advance := by
  rcases dispatch_cases s with ⟨hge, -⟩ | ⟨-, ⟨e, he⟩, -⟩ | ⟨-, j, hj, h⟩
  · exact absurd hpc (Nat.not_lt_of_le hge)
  · cases he.symm.trans hd
  · cases hj.symm.trans hd
    exact h

theorem beginCycle_advance_onlyChanges (s : State) :
    OnlyChanges [.pc, .stopInput, .calls] s s.beginCycle.advance := by
  intro p hp
  cases p
  case pc | stopInput | calls => simp at hp
  all_goals rfl

/-- Settles O7: the start of the cycle leaves PC and memory, so the dispatch fetches the two bytes at PC. -/
theorem stepRunsDecodedInstruction : Obligations.StepRunsDecodedInstruction := by
  unfold Obligations.StepRunsDecodedInstruction
  intro s i hs hstop hpc hdec
  have hd : dispatch s.beginCycle = exec i s.beginCycle.advance :=
    dispatch_of_decodeWord hpc ((decode_two_bytes_ok_iff _ _ i []).mp hdec)
  have hstep := step_running hs hstop
  rw [runCycle, hd] at hstep
  refine ⟨fun t ht => ?_, fun f hf => ?_, rfl, rfl, rfl, beginCycle_advance_onlyChanges s⟩
  · rw [hstep, ht]
    rfl
  · rw [hstep, hf]

end Sys2Proof.Machine

/-! The rules of spec/40_control_flow.md: return and call (R121, R123), jumps (R122, R124) and skips (R125 to R129). -/

namespace Sys2Proof.Machine

/-! ### Frames -/

theorem State.setPc_onlyChanges (s : State) (p : Word) : OnlyChanges [.pc] s (s.setPc p) := by
  intro q hq
  cases q
  case pc => simp at hq
  all_goals rfl

theorem State.skipIf_onlyChanges (s : State) (c : Bool) : OnlyChanges [.pc] s (s.skipIf c) := by
  cases c
  case false => exact fun q _ => by cases q <;> rfl
  case true => exact s.setPc_onlyChanges (s.pc + 2)

theorem State.raise_onlyChanges (s : State) (ia : Word) (k : FaultKind) : OnlyChanges [.status] s (s.raise ia k) := by
  intro q hq
  cases q
  case status => simp at hq
  all_goals rfl

/-- A return leaves the entry it pops as it was (R34). -/
theorem State.pop_onlyChanges (s : State) (sp : Byte) (p : Word) :
    OnlyChanges [.pc, .sp] s ({ s with sp := sp }.setPc p) := by
  intro q hq
  cases q
  case pc | sp => simp at hq
  all_goals rfl

theorem State.push_onlyChanges (s : State) (k : Fin 16) (sp : Byte) (w p : Word) :
    OnlyChanges [.pc, .sp, .stackEntry k] s ({ s with sp := sp, stack := s.stack.set k.val w }.setPc p) := by
  intro q hq
  cases q
  case pc | sp => simp at hq
  case stackEntry j =>
    have hjk : k.val ≠ j.val := fun e => hq (by simp [Fin.ext e])
    exact Vector.getElem_set_ne k.isLt j.isLt hjk
  all_goals rfl

/-! ### Jump targets (R93, R122, R124) -/

theorem toNat_addrOperand (nnn : BitVec 12) : (addrOperand nnn).toNat = nnn.toNat :=
  BitVec.toNat_setWidth_of_le (by decide)

theorem toNat_wordOperand (b : Byte) : (wordOperand b).toNat = b.toNat :=
  BitVec.toNat_setWidth_of_le (by decide)

/-- The sum of `Bnnn` is at most 0xFF + 0xFFF, so it does not wrap (R28). -/
theorem toNat_wordOperand_add_addrOperand (b : Byte) (nnn : BitVec 12) :
    (wordOperand b + addrOperand nnn).toNat = b.toNat + nnn.toNat := by
  rw [BitVec.toNat_add, toNat_wordOperand, toNat_addrOperand]
  omega

/-! ### Return and call (R121, R123) -/

/-- With SP = k + 1 at most 16 a return jumps to entry k (R34). -/
theorem exec_ret_pops {s : State} {k : Fin 16} (hsp : s.sp.toNat = k.val + 1) :
    exec .ret s = .next ({ s with sp := s.sp - 1 }.setPc s.stack[k.val]) := by
  obtain ⟨t, ht⟩ := everyInstructionAnswersNext.1 .ret s (by omega)
  rcases exec_next ht with ⟨h0, -⟩ | ⟨_, -, rfl⟩
  · omega
  · simpa [hsp] using ht

theorem exec_ret_underflows {s : State} (hsp : s.sp.toNat = 0) : exec .ret s = .next (s.raised .stackUnderflow) := by
  obtain ⟨t, ht⟩ := everyInstructionAnswersNext.1 .ret s (by omega)
  rcases exec_next ht with ⟨-, rfl⟩ | ⟨-, hpos, -⟩
  · exact ht
  · omega

/-- With SP = k below 16 a call writes its PC to entry k (R33). -/
theorem exec_call_pushes {s : State} {k : Fin 16} (nnn : BitVec 12) (hsp : s.sp.toNat = k.val) :
    exec (.call nnn) s =
      .next ({ s with sp := s.sp + 1, stack := s.stack.set k.val s.pc }.setPc (addrOperand nnn)) := by
  obtain ⟨t, ht⟩ := everyInstructionAnswersNext.1 (.call nnn) s (by omega)
  rcases exec_next ht with ⟨h16, -⟩ | ⟨_, rfl⟩
  · omega
  · simpa [hsp] using ht

theorem exec_call_overflows {s : State} (nnn : BitVec 12) (hsp : s.sp.toNat = 16) :
    exec (.call nnn) s = .next (s.raised (.stackOverflow 16)) := by
  obtain ⟨t, ht⟩ := everyInstructionAnswersNext.1 (.call nnn) s (by omega)
  have h16 : s.sp = 16 := BitVec.eq_of_toNat_eq hsp
  rcases exec_next ht with ⟨-, rfl⟩ | ⟨hlt, -⟩
  · rwa [h16] at ht
  · omega

/-- Settles O29: by the two ends of a return. -/
theorem returnPopsProgramCounter : Obligations.ReturnPopsProgramCounter := by
  unfold Obligations.ReturnPopsProgramCounter
  refine ⟨encode_matches_row .ret, fun s k hsp => ?_, fun s hsp => ?_⟩
  · have hsp' : (s.sp - 1).toNat = k.val := by bv_omega
    exact ⟨_, exec_ret_pops hsp, rfl, hsp', s.pop_onlyChanges _ _⟩
  · have h0 : s.sp.toNat = 0 := congrArg BitVec.toNat hsp
    exact ⟨_, exec_ret_underflows h0, rfl, s.raise_onlyChanges _ _⟩

/-- Settles O30: by the two ends of a call. -/
theorem callPushesReturnAddress : Obligations.CallPushesReturnAddress := by
  unfold Obligations.CallPushesReturnAddress
  refine ⟨fun nnn => encode_matches_row (.call nnn), fun s nnn k hsp => ?_, fun s nnn hsp => ?_⟩
  · have hsp' : (s.sp + 1).toNat = k.val + 1 := by bv_omega
    exact ⟨_, exec_call_pushes nnn hsp, toNat_addrOperand nnn, hsp', Vector.getElem_set_self k.isLt,
      s.push_onlyChanges k _ _ _⟩
  · exact ⟨_, exec_call_overflows nnn hsp, rfl, s.raise_onlyChanges _ _⟩

/-! ### Jumps (R122, R124) -/

/-- Settles O32: both write PC alone, and the sum of `Bnnn` does not wrap. -/
theorem jumpsSetProgramCounter : Obligations.JumpsSetProgramCounter := by
  unfold Obligations.JumpsSetProgramCounter
  refine ⟨fun nnn => ⟨encode_matches_row (.jp nnn), encode_matches_row (.jpV0 nnn)⟩, fun s nnn => ⟨?_, ?_⟩⟩
  · exact ⟨_, rfl, toNat_addrOperand nnn, s.setPc_onlyChanges _⟩
  · exact ⟨_, rfl, toNat_wordOperand_add_addrOperand _ nnn, s.setPc_onlyChanges _⟩

/-! ### Skips (R125 to R129) -/

/-- `if skip: Skip()` moves PC over the next instruction exactly on its condition (R125). -/
theorem State.skipIf_effect (s : State) {skip stay : Prop} [Decidable skip] (hstay : stay → ¬ skip) :
    (skip → (s.skipIf (decide skip)).pc = s.pc + 2) ∧ (stay → (s.skipIf (decide skip)).pc = s.pc) ∧
      OnlyChanges [.pc] s (s.skipIf (decide skip)) := by
  refine ⟨fun h => ?_, fun h => ?_, s.skipIf_onlyChanges _⟩
  · rw [decide_eq_true h]
    rfl
  · rw [decide_eq_false (hstay h)]
    rfl

/-- Settles O33: SE skips on the equality, SNE on its negation. -/
theorem skipsOnImmediate : Obligations.SkipsOnImmediate := by
  unfold Obligations.SkipsOnImmediate
  refine ⟨fun x nn => ⟨encode_matches_row (.seImm x nn), encode_matches_row (.sneImm x nn)⟩, fun s x nn => ⟨?_, ?_⟩⟩
  · exact ⟨_, rfl, s.skipIf_effect id⟩
  · exact ⟨_, rfl, s.skipIf_effect not_not_intro⟩

/-- Settles O34: as with an immediate; a last nibble other than 0 is one of R98's illegal words. -/
theorem skipsOnRegisters : Obligations.SkipsOnRegisters := by
  unfold Obligations.SkipsOnRegisters
  refine ⟨fun x y => ⟨encode_matches_row (.seReg x y), encode_matches_row (.sneReg x y)⟩, fun w hop hn => ?_,
    fun s x y => ⟨?_, ?_⟩⟩
  · refine (illegalWordsAreThoseListed w).mpr ?_
    rcases hop with h5 | h9
    · exact .inr (.inl ⟨h5, hn⟩)
    · exact .inr (.inr (.inr (.inl ⟨h9, hn⟩)))
  · exact ⟨_, rfl, s.skipIf_effect id⟩
  · exact ⟨_, rfl, s.skipIf_effect not_not_intro⟩

end Sys2Proof.Machine

/-! The rules of spec/41_alu.md: immediates (R161, R162), copy and logic (R170 to R173), sums, differences and shifts with their
flag (R174 to R178), and the random byte (R180). -/

namespace Sys2Proof.Machine

/-! ### Frames -/

theorem Part.same_trans {s t u : State} {p : Part} (hst : Part.same s t p) (htu : Part.same t u p) :
    Part.same s u p := by
  cases p
  all_goals exact Eq.trans htu hst

/-- Two changes in a row change what either of them does. -/
theorem OnlyChanges.trans {s t u : State} {ps qs : List Part} (hst : OnlyChanges ps s t) (htu : OnlyChanges qs t u) :
    OnlyChanges (ps ++ qs) s u := by
  intro p hp
  obtain ⟨hps, hqs⟩ := not_or.mp (List.mem_append.not.mp hp)
  exact Part.same_trans (hst p hps) (htu p hqs)

theorem State.setReg_onlyChanges (s : State) (x : Reg) (b : Byte) : OnlyChanges [.reg x] s (s.setReg x b) := by
  intro p hp
  cases p
  case reg y =>
    have hyx : y ≠ x := fun e => hp (by simp [e])
    exact s.reg_setReg_of_ne b hyx
  all_goals rfl

theorem State.setResult_onlyChanges (s : State) (x : Reg) (r : Byte) (c : Bool) :
    OnlyChanges [.reg x, .reg 15] s (s.setResult x r c) :=
  (s.setReg_onlyChanges x r).trans ((s.setReg x r).setReg_onlyChanges flagReg _)

theorem State.takeRand_onlyChanges (s : State) : OnlyChanges [.randInput] s s.takeRand.2 := by
  intro p hp
  cases p
  case randInput => simp at hp
  all_goals rfl

/-! ### A result and its flag (R29, R160) -/

theorem State.reg_setResult_dest (s : State) {x : Reg} (hx : x ≠ 15) (r : Byte) (c : Bool) :
    (s.setResult x r c).reg x = r := by
  rw [State.reg_setResult, if_neg (show x ≠ flagReg from hx), if_pos rfl]

/-- The flag is written last, so VF holds it for x = 15 too (R14, R160). -/
theorem State.reg_setResult_flag (s : State) (x : Reg) (r : Byte) (c : Bool) :
    (s.setResult x r c).reg 15 = if c then 1 else 0 := by
  rw [State.reg_setResult]
  exact if_pos rfl

theorem State.toNat_reg_setResult_flag (s : State) (x : Reg) (r : Byte) (c : Bool) :
    ((s.setResult x r c).reg 15).toNat = c.toNat := by
  rw [State.reg_setResult_flag]
  cases c <;> rfl

/-- A flag that a condition decides: VF is 1 where it holds, 0 where it fails. -/
theorem State.setResult_decide_effect (s : State) (x : Reg) (r : Byte) {set clear : Prop} [Decidable set]
    (hclear : clear → ¬ set) :
    (set → (s.setResult x r (decide set)).reg 15 = 1) ∧ (clear → (s.setResult x r (decide set)).reg 15 = 0) ∧
      OnlyChanges [.reg x, .reg 15] s (s.setResult x r (decide set)) := by
  refine ⟨fun h => ?_, fun h => ?_, s.setResult_onlyChanges x r _⟩
  · rw [State.reg_setResult_flag, decide_eq_true h]
    rfl
  · rw [State.reg_setResult_flag, decide_eq_false (hclear h)]
    rfl

/-! ### Results and shifted bits as numbers (R165, R176, R178) -/

theorem toNat_addResult (a b : Byte) : (addResult a b).toNat = (a.toNat + b.toNat) % 256 :=
  BitVec.toNat_ofNat ..

theorem toNat_subResult (a b : Byte) : ((subResult a b).toNat : Int) = ((a.toNat : Int) - b.toNat) % 256 := by
  rw [subResult, BitVec.toNat_sub]
  omega

theorem toNat_shrResult (a : Byte) : (shrResult a).toNat = a.toNat / 2 := by
  rw [shrResult, BitVec.toNat_ushiftRight, Nat.shiftRight_one]

theorem toNat_shlResult (a : Byte) : (shlResult a).toNat = a.toNat * 2 % 256 := by
  rw [shlResult, BitVec.toNat_shiftLeft, Nat.shiftLeft_eq, pow_one]

/-- Old bit 0 is the remainder of the halving. -/
theorem toNat_shrFlag (a : Byte) : (shrFlag a).toNat = a.toNat % 2 := by
  rw [shrFlag, BitVec.getLsbD, Nat.toNat_testBit, pow_zero, Nat.div_one]

/-- Old bit 7 is all that 128 leaves of a byte. -/
theorem toNat_shlFlag (a : Byte) : (shlFlag a).toNat = a.toNat / 128 := by
  rw [shlFlag, BitVec.getLsbD, Nat.toNat_testBit]
  omega

/-! ### Sums, differences and shifts with their flag (R174 to R178) -/

/-- Settles O37: the carry is decided on the exact sum, the result is its remainder. -/
theorem addSetsCarry : Obligations.AddSetsCarry := by
  unfold Obligations.AddSetsCarry
  refine ⟨fun x y => encode_matches_row (.addReg x y), fun s x y => ⟨_, rfl, fun hx => ?_, ?_⟩⟩
  · rw [State.reg_setResult_dest s hx, toNat_addResult]
  · exact s.setResult_decide_effect x _ Nat.not_lt_of_le

/-- Settles O38: no borrow is decided on the operands, the result is the remainder of the signed difference. -/
theorem subtractionsSetNoBorrow : Obligations.SubtractionsSetNoBorrow := by
  unfold Obligations.SubtractionsSetNoBorrow
  refine ⟨fun x y => ⟨encode_matches_row (.subReg x y), encode_matches_row (.subn x y)⟩, fun s x y => ⟨?_, ?_⟩⟩
  · refine ⟨_, rfl, fun hx => ?_, s.setResult_decide_effect x _ Nat.not_le_of_lt⟩
    rw [State.reg_setResult_dest s hx, toNat_subResult]
  · refine ⟨_, rfl, fun hx => ?_, s.setResult_decide_effect x _ Nat.not_le_of_lt⟩
    rw [State.reg_setResult_dest s hx, toNat_subResult]

/-- Settles O39: neither meaning reads y; the bit shifted out is a remainder or a quotient of the old value. -/
theorem shiftsReportBitShiftedOut : Obligations.ShiftsReportBitShiftedOut := by
  unfold Obligations.ShiftsReportBitShiftedOut
  refine ⟨fun x y => ⟨encode_matches_row (.shr x y), encode_matches_row (.shl x y)⟩, fun s x y z => ⟨rfl, rfl⟩,
    fun s x y => ⟨⟨_, rfl, fun hx => ?_, ?_, s.setResult_onlyChanges x _ _⟩,
      ⟨_, rfl, fun hx => ?_, ?_, s.setResult_onlyChanges x _ _⟩⟩⟩
  · rw [State.reg_setResult_dest s hx, toNat_shrResult]
  · rw [State.toNat_reg_setResult_flag, toNat_shrFlag]
  · rw [State.reg_setResult_dest s hx, toNat_shlResult]
  · rw [State.toNat_reg_setResult_flag, toNat_shlFlag]

/-! ### Copies, logic and immediates (R161, R162, R170 to R173) -/

/-- Settles O36: each writes Vx alone, and a bit of a bitwise operation is the operation on the two bits. -/
theorem copyAndLogic : Obligations.CopyAndLogic := by
  unfold Obligations.CopyAndLogic
  refine ⟨fun x y => ⟨encode_matches_row (.ldReg x y), encode_matches_row (.orReg x y), encode_matches_row (.andReg x y),
    encode_matches_row (.xorReg x y)⟩, fun s x y => ⟨?_, ?_, ?_, ?_⟩⟩
  · exact ⟨_, rfl, s.reg_setReg_self x _, s.setReg_onlyChanges x _⟩
  · refine ⟨_, rfl, fun b _ => ?_, s.setReg_onlyChanges x _⟩
    rw [State.reg_setReg_self, BitVec.getLsbD_or]
  · refine ⟨_, rfl, fun b _ => ?_, s.setReg_onlyChanges x _⟩
    rw [State.reg_setReg_self, BitVec.getLsbD_and]
  · refine ⟨_, rfl, fun b _ => ?_, s.setReg_onlyChanges x _⟩
    rw [State.reg_setReg_self, BitVec.getLsbD_xor]

/-- Settles O35: both write Vx alone, the sum as `8xy4` forms it but without its flag. -/
theorem immediateLoadAndAdd : Obligations.ImmediateLoadAndAdd := by
  unfold Obligations.ImmediateLoadAndAdd
  refine ⟨fun x nn => ⟨encode_matches_row (.ldImm x nn), encode_matches_row (.addImm x nn)⟩, fun s x nn => ⟨?_, ?_⟩⟩
  · exact ⟨_, rfl, s.reg_setReg_self x nn, s.setReg_onlyChanges x nn⟩
  · refine ⟨_, rfl, ?_, s.setReg_onlyChanges x _⟩
    rw [State.reg_setReg_self, toNat_addResult]

/-! ### The random byte (R180, R355) -/

/-- `Cxnn` takes the draw and writes Vx. -/
theorem State.takeRand_setReg_onlyChanges (s : State) (x : Reg) (b : Byte) :
    OnlyChanges [.reg x, .randInput] s (s.takeRand.2.setReg x b) := by
  intro p hp
  refine s.takeRand_onlyChanges.trans (s.takeRand.2.setReg_onlyChanges x b) p fun hmem => hp ?_
  exact (List.Perm.swap (Part.reg x) .randInput []).mem_iff.mp hmem

/-- Settles O40: the byte masked is the port's next draw, the ready one where there is one. -/
theorem randomByteIsMasked : Obligations.RandomByteIsMasked := by
  unfold Obligations.RandomByteIsMasked
  refine ⟨fun x nn => encode_matches_row (.rnd x nn), fun s x nn => ?_, fun s r rest hready => ?_⟩
  · exact ⟨_, rfl, s.takeRand.2.reg_setReg_self x _, rfl, s.takeRand_setReg_onlyChanges x _⟩
  · exact Feed.nth_zero_of_pending Config.freeRand hready

end Sys2Proof.Machine

/-! The rules of spec/42_index_memory.md: the index register (R201 to R203), storing digits and registers (R204, R205) and loading
registers (R206). -/

namespace Sys2Proof.Machine

/-! ### Frames -/

theorem State.setI_onlyChanges (s : State) (w : Word) : OnlyChanges [.index] s (s.setI w) := by
  intro p hp
  cases p
  case index => simp at hp
  all_goals rfl

theorem State.setFlag_onlyChanges (s : State) (c : Bool) : OnlyChanges [.reg 15] s (s.setFlag c) :=
  s.setReg_onlyChanges flagReg _

theorem byte_mem_bytesFrom {a n b : Nat} : Part.byte b ∈ bytesFrom a n ↔ a ≤ b ∧ b < a + n := by
  simp only [bytesFrom, List.mem_map, List.mem_range, Part.byte.injEq]
  constructor
  · rintro ⟨k, hk, rfl⟩
    omega
  · rintro ⟨hlo, hhi⟩
    exact ⟨b - a, by omega, by omega⟩

theorem reg_mem_regsThrough {x y : Reg} : Part.reg y ∈ regsThrough x ↔ y ≤ x := by
  simp [regsThrough]

theorem State.setMem_writeRange_onlyChanges (s : State) (a : Nat) (bs : List Byte) :
    OnlyChanges (bytesFrom a bs.length) s (s.setMem (s.mem.writeRange a bs)) := by
  intro p hp
  cases p
  case byte b =>
    by_contra hne
    exact hp (byte_mem_bytesFrom.mpr (Memory.mem_block_of_read_ne hne))
  all_goals rfl

theorem State.loadRegs_onlyChanges (s : State) (x : Reg) : OnlyChanges (regsThrough x) s (s.loadRegs x) := by
  intro p hp
  cases p
  case reg y =>
    have hyx : ¬ y ≤ x := fun h => hp (reg_mem_regsThrough.mpr h)
    exact (s.reg_loadRegs x y).trans (if_neg hyx)
  all_goals simp [Part.same]

/-! ### The index register (R201 to R203) -/

theorem toNat_indexResult (i : Word) (b : Byte) : (indexResult i b).toNat = (i.toNat + b.toNat) % 65536 :=
  BitVec.toNat_ofNat ..

/-- The product is at most 255 × 5, so it does not wrap. -/
theorem toNat_glyphAddr (b : Byte) : (glyphAddr b).toNat = b.toNat * 5 := by
  rw [glyphAddr, BitVec.toNat_ofNat]
  omega

/-- VF holds the flag just written: 1 where its condition holds, 0 where it fails (R29). -/
theorem State.reg_setFlag_decide (s : State) {set clear : Prop} [Decidable set] (hclear : clear → ¬ set) :
    (set → (s.setFlag (decide set)).reg 15 = 1) ∧ (clear → (s.setFlag (decide set)).reg 15 = 0) := by
  have hvf : (s.setFlag (decide set)).reg 15 = if decide set then 1 else 0 := s.reg_setReg_self flagReg _
  rw [hvf]
  exact ⟨fun h => if_pos (decide_eq_true h), fun h => if_neg (by simpa using hclear h)⟩

/-- Settles O41: `nnn` and the glyph's address fit in I; the sum is I's remainder, its carry decided on the exact sum. -/
theorem indexRegisterWrites : Obligations.IndexRegisterWrites := by
  unfold Obligations.IndexRegisterWrites
  refine ⟨fun nnn => encode_matches_row (.ldI nnn), fun x => ⟨encode_matches_row (.addI x), encode_matches_row (.ldF x)⟩,
    fun s nnn => ?_, fun s x => ⟨?_, ?_⟩⟩
  · exact ⟨_, rfl, toNat_addrOperand nnn, s.setI_onlyChanges _⟩
  · have hno : s.i.toNat + (s.reg x).toNat ≤ 0xFFFF → ¬ 0xFFFF < s.i.toNat + (s.reg x).toNat := Nat.not_lt_of_le
    obtain ⟨hset, hclear⟩ := (s.setI (indexResult s.i (s.reg x))).reg_setFlag_decide hno
    exact ⟨_, rfl, toNat_indexResult .., hset, hclear, (s.setI_onlyChanges _).trans (State.setFlag_onlyChanges _ _)⟩
  · exact ⟨_, rfl, toNat_glyphAddr _, s.setI_onlyChanges _⟩

/-! ### Transfers: all of the block, or a fault and none of it (R64, R204 to R206) -/

/-- A raised fault ends the instruction with its record, IA being PC − 2, and changes nothing else (R91, R300). -/
theorem State.complete_raise_effect (s : State) (k : FaultKind) :
    ∃ t, s.complete (.error (.raise k)) = .next t ∧ t.status = .faulted ⟨k, s.pc - 2⟩ ∧ OnlyChanges [.status] s t :=
  ⟨_, rfl, rfl, s.raise_onlyChanges _ _⟩

/-- A block whose last address is inside memory is stored byte by byte, and no other byte is written. -/
theorem State.storeBlock_effect {s : State} {bytes : List Byte} {last : Nat} (hm : s.mem.wf)
    (hlen : bytes.length = last + 1) (hlast : s.dataAddr last < 4096) :
    ∃ t, s.complete (s.storeBlock bytes) = .next t ∧
      (∀ k (hk : k < bytes.length), t.mem.read (s.dataAddr k) = bytes[k]) ∧
      OnlyChanges (bytesFrom (s.dataAddr 0) (last + 1)) s t := by
  have hend : s.dataAddr 0 + bytes.length ≤ Config.memSize := by
    rw [hlen]
    exact hlast
  rcases s.storeBlock_cases bytes with ⟨-, e⟩ | ⟨hge, -⟩
  · rw [e, ← hlen]
    exact ⟨_, rfl, fun k hk => Memory.read_writeRange_inside hm hend hk, s.setMem_writeRange_onlyChanges _ _⟩
  · rw [hlen] at hge
    exact absurd hlast (Nat.not_lt_of_le hge)

/-- A block whose last address is past memory raises `MemoryBounds(write)` with that address, and no byte is written. -/
theorem State.storeBlock_out_of_bounds {s : State} {bytes : List Byte} {last : Nat}
    (hlen : bytes.length = last + 1) (hlast : 4096 ≤ s.dataAddr last) :
    ∃ t, s.complete (s.storeBlock bytes) = .next t ∧
      t.status = .faulted ⟨.memoryBounds (BitVec.ofNat 17 (s.dataAddr last)) .write, s.pc - 2⟩ ∧
      OnlyChanges [.status] s t := by
  rcases s.storeBlock_cases bytes with ⟨hlt, -⟩ | ⟨-, e⟩
  · rw [hlen] at hlt
    exact absurd hlt (Nat.not_lt_of_le hlast)
  · rw [e, hlen]
    exact s.complete_raise_effect _

/-! ### Decimal digits (R204) -/

theorem decimalDigits_length (b : Byte) : (decimalDigits b).length = 3 := rfl

/-- A number at most a byte's value, as each of its decimal digits is, loses no bit as a byte. -/
theorem toNat_ofNat_of_le_byte {b : Byte} {n : Nat} (h : n ≤ b.toNat) : (BitVec.ofNat 8 n).toNat = n :=
  Nat.mod_eq_of_lt (Nat.lt_of_le_of_lt h b.isLt)

/-- Settles O42: the three digits are one block; each is at most Vx, so it fits in its byte. -/
theorem decimalDigitsAreStored : Obligations.DecimalDigitsAreStored := by
  unfold Obligations.DecimalDigitsAreStored
  refine ⟨fun x => encode_matches_row (.ldB x), fun s x hm hlast => ?_, fun s x hlast => ?_⟩
  · have hlen := decimalDigits_length (s.reg x)
    obtain ⟨t, ht, hread, hframe⟩ := State.storeBlock_effect hm hlen hlast
    refine ⟨t, ht, ?_, ?_, ?_, hframe⟩
    · rw [hread 0 (by omega)]
      exact toNat_ofNat_of_le_byte (Nat.div_le_self ..)
    · rw [hread 1 (by omega)]
      exact toNat_ofNat_of_le_byte ((Nat.mod_le ..).trans (Nat.div_le_self ..))
    · rw [hread 2 (by omega)]
      exact toNat_ofNat_of_le_byte (Nat.mod_le ..)
  · exact State.storeBlock_out_of_bounds (decimalDigits_length _) hlast

/-! ### Blocks of registers (R205, R206) -/

/-- Settles O43: V0..Vx are one block of x + 1 bytes, the r-th of them Vr. -/
theorem registersAreStored : Obligations.RegistersAreStored := by
  unfold Obligations.RegistersAreStored
  refine ⟨fun x => encode_matches_row (.store x), fun s x hm hlast => ?_, fun s x hlast => ?_⟩
  · have hlen := s.regsUpTo_length x
    obtain ⟨t, ht, hread, hframe⟩ := State.storeBlock_effect hm hlen hlast
    refine ⟨t, ht, fun r hr => ?_, hframe⟩
    have hk : r.val < (s.regsUpTo x).length := hlen ▸ Nat.lt_succ_of_le hr
    rw [hread r.val hk, State.regsUpTo_getElem]
  · exact State.storeBlock_out_of_bounds (s.regsUpTo_length x) hlast

theorem exec_load_in_bounds {s : State} {x : Reg} (hlast : s.dataAddr x.val < 4096) :
    exec (.load x) s = .next (s.loadRegs x) := by
  rw [exec, execLoad, checkLast_ok .read hlast, State.complete_ok]

theorem exec_load_out_of_bounds {s : State} {x : Reg} (hlast : 4096 ≤ s.dataAddr x.val) :
    exec (.load x) s =
      s.complete (.error (.raise (.memoryBounds (BitVec.ofNat 17 (s.dataAddr x.val)) .read))) := by
  rw [exec, execLoad, checkLast_raise .read hlast]

/-- Settles O44: a load inside memory writes V0..Vx alone, any other raises before a register is written. -/
theorem registersAreLoaded : Obligations.RegistersAreLoaded := by
  unfold Obligations.RegistersAreLoaded
  refine ⟨fun x => encode_matches_row (.load x), fun s x hlast => ?_, fun s x hlast => ?_⟩
  · refine ⟨_, exec_load_in_bounds hlast, fun r hr => ?_, s.loadRegs_onlyChanges x⟩
    rw [State.reg_loadRegs, if_pos hr]
    rfl
  · rw [exec_load_out_of_bounds hlast]
    exact s.complete_raise_effect _

end Sys2Proof.Machine

/-! The rules of spec/43_display.md: clearing the Display (R240), drawing a sprite (R241), and what no instruction does for the
scheduler (R239). -/

namespace Sys2Proof.Machine

/-! ### Frames -/

/-- A frame may name more parts than change. -/
theorem OnlyChanges.mono {s t : State} {ps qs : List Part} (h : OnlyChanges ps s t) (hsub : ps ⊆ qs) :
    OnlyChanges qs s t :=
  fun p hp => h p fun hmem => hp (hsub hmem)

theorem State.setFb_onlyChanges (s : State) (fb : Framebuffer) : OnlyChanges [.framebuffer] s (s.setFb fb) := by
  intro p hp
  cases p
  case framebuffer => simp at hp
  all_goals rfl

theorem State.callIo_onlyChanges (s : State) (c : PortCall) : OnlyChanges [.calls, .ioErrorInput] s (s.callIo c).2 := by
  intro p hp
  cases p
  case calls | ioErrorInput => simp at hp
  all_goals rfl

theorem State.callIo_setFb_onlyChanges (s : State) (c : PortCall) (fb : Framebuffer) :
    OnlyChanges [.framebuffer, .calls, .ioErrorInput] s ((s.callIo c).2.setFb fb) :=
  ((s.callIo_onlyChanges c).trans (State.setFb_onlyChanges _ fb)).mono (by simp)

theorem State.callIo_setFb_setFlag_onlyChanges (s : State) (c : PortCall) (fb : Framebuffer) (collision : Bool) :
    OnlyChanges [.reg 15, .framebuffer, .calls, .ioErrorInput] s (((s.callIo c).2.setFb fb).setFlag collision) :=
  ((s.callIo_setFb_onlyChanges c fb).trans (State.setFlag_onlyChanges _ collision)).mono (by simp)

/-- A call that fails ends the instruction in its fault. -/
theorem State.callIo_raised_onlyChanges (s : State) (c : PortCall) (k : FaultKind) :
    OnlyChanges [.status, .framebuffer, .calls, .ioErrorInput] s ((s.callIo c).2.raised k) :=
  ((s.callIo_onlyChanges c).trans (State.raise_onlyChanges _ _ k)).mono (by simp)

/-! ### Clearing the Display (R240, R341) -/

theorem exec_cls_clears {s : State} (hio : s.ioDraw 0 = false) :
    exec .cls s = .next ((s.callIo .clear).2.setFb Framebuffer.blank) :=
  congrArg Host.Outcome.next (if_neg (ne_true_of_eq_false hio))

theorem exec_cls_fails {s : State} (hio : s.ioDraw 0 = true) :
    exec .cls s = .next ((s.callIo .clear).2.raised (.peripheralError .clear)) :=
  congrArg Host.Outcome.next (if_pos hio)

/-- Settles O46: by the two ends of a clear. -/
theorem clearUnlightsEveryPixel : Obligations.ClearUnlightsEveryPixel := by
  unfold Obligations.ClearUnlightsEveryPixel
  refine ⟨encode_matches_row .cls, fun s hio => ?_, fun s hio => ?_⟩
  · exact ⟨_, exec_cls_clears hio, Framebuffer.lit_blank, rfl, rfl, s.callIo_setFb_onlyChanges _ _⟩
  · exact ⟨_, exec_cls_fails hio, rfl, rfl, rfl, s.callIo_raised_onlyChanges _ _⟩

/-! ### Drawing a sprite (R241) -/

theorem State.drawSprite_draws {s : State} (hio : s.ioDraw 0 = false) (cx cy : Byte) (bytes : List Byte) :
    s.drawSprite cx cy bytes =
      .next (((s.callIo (.draw cx cy bytes)).2.setFb (s.fb.draw s.edgePolicy cx cy bytes).1).setFlag
        (s.fb.draw s.edgePolicy cx cy bytes).2) :=
  congrArg Host.Outcome.next (if_neg (ne_true_of_eq_false hio))

theorem State.drawSprite_fails {s : State} (hio : s.ioDraw 0 = true) (cx cy : Byte) (bytes : List Byte) :
    s.drawSprite cx cy bytes = .next ((s.callIo (.draw cx cy bytes)).2.raised (.peripheralError .draw)) :=
  congrArg Host.Outcome.next (if_pos hio)

/-- With n = 0 no access is made, so none is checked. -/
theorem State.checkSprite_ok {s : State} {n : Nat} (hlast : 0 < n → s.dataAddr (n - 1) < Config.memSize) :
    s.checkSprite n = .ok () := by
  unfold State.checkSprite
  split_ifs with h0
  · rfl
  · exact checkLast_ok .read (hlast (Nat.pos_of_ne_zero h0))

theorem State.checkSprite_raise {s : State} {n : Nat} (hpos : 0 < n) (hlast : Config.memSize ≤ s.dataAddr (n - 1)) :
    s.checkSprite n = .error (.raise (.memoryBounds (BitVec.ofNat 17 (s.dataAddr (n - 1))) .read)) := by
  rw [State.checkSprite, if_neg (Nat.ne_of_gt hpos), checkLast_raise .read hlast]

theorem exec_drw_in_bounds {s : State} {n : BitVec 4} (x y : Reg)
    (hlast : 0 < n.toNat → s.dataAddr (n.toNat - 1) < 4096) :
    exec (.drw x y n) s = s.drawSprite (s.reg x) (s.reg y) (s.mem.readRange (s.dataAddr 0) n.toNat) := by
  rw [exec, execDrw, countOperand, State.checkSprite_ok hlast]

theorem exec_drw_out_of_bounds {s : State} {n : BitVec 4} (x y : Reg) (hpos : 0 < n.toNat)
    (hlast : 4096 ≤ s.dataAddr (n.toNat - 1)) :
    exec (.drw x y n) s =
      s.complete (.error (.raise (.memoryBounds (BitVec.ofNat 17 (s.dataAddr (n.toNat - 1))) .read))) := by
  rw [exec, execDrw, countOperand, State.checkSprite_raise hpos hlast]

/-- Settles O47: past the bounds check the Display is called once, with the n bytes from I; it draws or it fails. -/
theorem drawInstruction : Obligations.DrawInstruction := by
  unfold Obligations.DrawInstruction
  refine ⟨fun x y n => encode_matches_row (.drw x y n), fun s x y n hlast hio => ?_, fun s x y n hpos hlast => ?_,
    fun s x y n hlast hio => ?_⟩
  · rw [exec_drw_in_bounds x y hlast, State.drawSprite_draws hio]
    exact ⟨_, _, rfl, Memory.readRange_length .., fun k hk => Memory.readRange_getElem _ _ _ k hk, rfl,
      State.reg_setReg_self _ flagReg _, rfl, rfl, s.callIo_setFb_setFlag_onlyChanges _ _ _⟩
  · rw [exec_drw_out_of_bounds x y hpos hlast]
    exact s.complete_raise_effect _
  · rw [exec_drw_in_bounds x y hlast, State.drawSprite_fails hio]
    exact ⟨_, rfl, rfl, rfl, rfl, s.callIo_raised_onlyChanges _ _⟩

/-! ### The scheduler's part of the state (R239, R310, R326, R345) -/

/-- What only the tick, the poll and the start of a cycle change. -/
def schedulerParts : List Part :=
  [.instrDue, .timerDue, .held, .screen, .beeper, .edgePolicy, .stopInput, .tickInput, .pollInput]

/-- A frame that names no part of the scheduler's keeps them all. -/
theorem OnlyChanges.keeps_schedulerParts {s t : State} {ps : List Part} (h : OnlyChanges ps s t)
    (hdisj : ∀ p ∈ schedulerParts, p ∉ ps) : ∀ p ∈ schedulerParts, Part.same s t p :=
  fun p hp => h p (hdisj p hp)

/-- The instructions other than `00E0` and `Dxyn` make no port call, and none changes what is the scheduler's. -/
theorem exec_keeps_schedulerParts_calls {i : Instr} {s t : State} (h : exec i s = .next t) (hcls : i ≠ .cls)
    (hdrw : ∀ x y n, i ≠ .drw x y n) : (∀ p ∈ schedulerParts, Part.same s t p) ∧ t.calls = s.calls := by
  replace h := exec_next h
  simp only [schedulerParts, List.forall_mem_cons, Part.same]
  cases i
  case cls => exact absurd rfl hcls
  case drw => exact absurd rfl (hdrw _ _ _)
  case ret => rcases h with ⟨-, rfl⟩ | ⟨_, -, rfl⟩ <;> simp
  case call => rcases h with ⟨-, rfl⟩ | ⟨_, rfl⟩ <;> simp
  case ldB | store | load => rcases h with ⟨-, rfl⟩ | ⟨-, rfl⟩ <;> simp
  case skp | sknp => rcases h with ⟨-, rfl⟩ | ⟨_, rfl⟩ <;> simp
  case ldVxK => rcases h with ⟨_, -, rfl⟩ | ⟨-, rfl⟩ <;> simp
  all_goals
    obtain rfl := h
    simp

/-- Settles O28: `00E0` and `Dxyn` make their one Display call, within the frame of each of their ends; the others call
nothing. -/
theorem noInstructionActsForTheScheduler : Obligations.NoInstructionActsForTheScheduler := by
  unfold Obligations.NoInstructionActsForTheScheduler
  intro i s t h
  cases i
  case cls =>
    rcases exec_next h with ⟨-, rfl⟩ | ⟨-, rfl⟩
    · exact ⟨(s.callIo_raised_onlyChanges _ _).keeps_schedulerParts (by decide), .inr (.inl rfl)⟩
    · exact ⟨(s.callIo_setFb_onlyChanges _ _).keeps_schedulerParts (by decide), .inr (.inl rfl)⟩
  case drw =>
    rcases exec_next h with ⟨-, -, rfl⟩ | ⟨-, _, -, ⟨-, rfl⟩ | ⟨-, rfl⟩⟩
    · exact ⟨(s.raise_onlyChanges _ _).keeps_schedulerParts (by decide), .inl rfl⟩
    · exact ⟨(s.callIo_raised_onlyChanges _ _).keeps_schedulerParts (by decide), .inr (.inr ⟨_, _, _, rfl⟩)⟩
    · exact ⟨(s.callIo_setFb_setFlag_onlyChanges _ _ _).keeps_schedulerParts (by decide), .inr (.inr ⟨_, _, _, rfl⟩)⟩
  all_goals
    obtain ⟨hparts, hcalls⟩ := exec_keeps_schedulerParts_calls h (by simp) (by simp)
    exact ⟨hparts, .inl hcalls⟩

end Sys2Proof.Machine

/-! The rules of spec/44_timers_keys.md: key skips (R271 to R273), timer transfers (R274 to R276) and the key wait (R277, R278),
with the tail of a cycle none of whose calls fails (R322 to R328, R345). -/

namespace Sys2Proof.Machine

/-! ### Frames -/

theorem State.setDt_onlyChanges (s : State) (b : Byte) : OnlyChanges [.dt] s (s.setDt b) := by
  intro p hp
  cases p
  case dt => simp at hp
  all_goals rfl

theorem State.setSt_onlyChanges (s : State) (b : Byte) : OnlyChanges [.st] s (s.setSt b) := by
  intro p hp
  cases p
  case st => simp at hp
  all_goals rfl

theorem State.takeNewKey_onlyChanges (s : State) : OnlyChanges [.newKey] s s.takeNewKey.2 := by
  intro p hp
  cases p
  case newKey => simp at hp
  all_goals rfl

/-! ### Key skips (R271 to R273) -/

theorem keyIndex_key {v : Byte} {k : Key} (h : v.toNat = k.val) : keyIndex v = .ok k := by
  rcases keyIndex_cases v with ⟨hlt, e⟩ | ⟨hge, -⟩
  · rw [e]
    exact congrArg Except.ok (Fin.ext h)
  · omega

theorem keyIndex_out_of_range {v : Byte} (h : 16 ≤ v.toNat) : keyIndex v = .error (.raise (.keyRange v)) := by
  rcases keyIndex_cases v with ⟨hlt, -⟩ | ⟨-, e⟩
  · exact absurd hlt (Nat.not_lt_of_le h)
  · exact e

theorem exec_skp_key {s : State} {x : Reg} {k : Key} (h : (s.reg x).toNat = k.val) :
    exec (.skp x) s = .next (s.skipIf (s.keyHeld k)) := by
  rw [exec, execSkp, keyIndex_key h, State.complete_ok]

theorem exec_sknp_key {s : State} {x : Reg} {k : Key} (h : (s.reg x).toNat = k.val) :
    exec (.sknp x) s = .next (s.skipIf (!s.keyHeld k)) := by
  rw [exec, execSknp, keyIndex_key h, State.complete_ok]

/-- With Vx no key, either skip ends in `KeyRange(Vx)` (R273). -/
theorem exec_keySkip_out_of_range {s : State} {x : Reg} (h : 16 ≤ (s.reg x).toNat) :
    exec (.skp x) s = s.complete (.error (.raise (.keyRange (s.reg x)))) ∧
    exec (.sknp x) s = s.complete (.error (.raise (.keyRange (s.reg x)))) := by
  constructor
  · rw [exec, execSkp, keyIndex_out_of_range h]
  · rw [exec, execSknp, keyIndex_out_of_range h]

/-- Settles O50: with a key in Vx both are a skip, on the held bit and on its negation; with none both raise. -/
theorem keySkips : Obligations.KeySkips := by
  unfold Obligations.KeySkips
  refine ⟨fun x => ⟨encode_matches_row (.skp x), encode_matches_row (.sknp x)⟩, fun s x k hk => ⟨?_, ?_⟩, fun s x hge => ?_⟩
  · exact ⟨_, exec_skp_key hk, s.skipIf_pc _, s.skipIf_onlyChanges _⟩
  · refine ⟨_, exec_sknp_key hk, ?_, s.skipIf_onlyChanges _⟩
    rw [State.skipIf_pc, State.keyHeld]
    cases s.held[k.val] <;> rfl
  · obtain ⟨hskp, hsknp⟩ := exec_keySkip_out_of_range hge
    rw [hskp, hsknp]
    exact ⟨s.complete_raise_effect _, s.complete_raise_effect _⟩

/-! ### Timer transfers (R274 to R276) -/

/-- Settles O51: each is one write, of a register or of a timer. -/
theorem timerTransfers : Obligations.TimerTransfers := by
  unfold Obligations.TimerTransfers
  refine ⟨fun x => ⟨encode_matches_row (.ldVxDt x), encode_matches_row (.ldDtVx x), encode_matches_row (.ldStVx x)⟩,
    fun s x => ⟨?_, ?_, ?_⟩⟩
  · exact ⟨_, rfl, s.reg_setReg_self x _, s.setReg_onlyChanges x _⟩
  · exact ⟨_, rfl, rfl, s.setDt_onlyChanges _⟩
  · exact ⟨_, rfl, rfl, s.setSt_onlyChanges _⟩

/-! ### The key wait (R277, R346) -/

theorem toNat_keyOperand (k : Key) : (keyOperand k).toNat = k.val :=
  Nat.mod_eq_of_lt (Nat.lt_trans k.isLt (by decide))

/-- Taking from an empty latch changes nothing. -/
theorem State.takeNewKey_of_none {s : State} (h : s.newKey = none) : s.takeNewKey = (none, s) := by
  rw [State.takeNewKey, ← h]

theorem exec_ldVxK_takes {s : State} {k : Key} (x : Reg) (h : s.newKey = some k) :
    exec (.ldVxK x) s = .next (s.takeNewKey.2.setReg x (keyOperand k)) := by
  rw [exec, execLdVxK, show s.takeNewKey = (some k, s.takeNewKey.2) from Prod.ext h rfl]

theorem exec_ldVxK_waits {s : State} (x : Reg) (h : s.newKey = none) :
    exec (.ldVxK x) s = .next (s.setPc (s.pc - 2)) := by
  rw [exec, execLdVxK, State.takeNewKey_of_none h]

/-- Settles O52: the latch is taken and its key written to Vx, or the empty latch sends PC back. -/
theorem keyWait : Obligations.KeyWait := by
  unfold Obligations.KeyWait
  refine ⟨fun x => encode_matches_row (.ldVxK x), fun s x k hk => ?_, fun s x hnone => ?_⟩
  · refine ⟨_, exec_ldVxK_takes x hk, ?_, rfl, ?_⟩
    · rw [State.reg_setReg_self, toNat_keyOperand]
    · exact (s.takeNewKey_onlyChanges.trans (State.setReg_onlyChanges _ x _)).mono (by simp)
  · exact ⟨_, exec_ldVxK_waits x hnone, rfl, s.setPc_onlyChanges _⟩

/-! ### The tick and the poll, when no call fails (R322 to R328, R345) -/

theorem toNat_countDown (b : Byte) : (countDown b).toNat = b.toNat - 1 := by
  unfold countDown
  split_ifs with h0
  · rw [h0]
    rfl
  · bv_omega

theorem remainingTime_eq_max (due : Nat) (now : Rat) : remainingTime due now = max 0 ((due : Rat) - now) := by
  unfold remainingTime
  split_ifs with hle
  · exact (max_eq_right (sub_nonneg.mpr hle)).symm
  · exact (max_eq_left (sub_nonpos.mpr (le_of_not_ge hle))).symm

/-- The poll's call is fixed by the due time and the poll's draw. -/
theorem State.pollCall_congr {s t : State} (hdue : t.instrDue = s.instrDue) (hdraw : t.nextPoll = s.nextPoll) :
    t.pollCall = s.pollCall := by
  rw [State.pollCall, State.pollCall, hdue, hdraw]

theorem State.takeTick_onlyChanges (s : State) : OnlyChanges [.tickInput] s s.takeTick.2 := by
  intro p hp
  cases p
  case tickInput => simp at hp
  all_goals rfl

theorem State.tickTimers_onlyChanges (s : State) : OnlyChanges [.dt, .st, .timerDue, .beeper, .calls] s s.tickTimers := by
  intro p hp
  cases p
  case dt | st | timerDue | beeper | calls => simp at hp
  all_goals rfl

theorem State.flush_done_onlyChanges {s : State} (ia : Word) (hio : s.ioDraw 0 = false) :
    OnlyChanges [.screen, .ioErrorInput, .calls] s (s.flush ia) := by
  rw [State.flush_done ia hio]
  intro p hp
  cases p
  case screen | ioErrorInput | calls => simp at hp
  all_goals rfl

theorem State.pollPhase_done_onlyChanges {s : State} (ia : Word) (hio : s.ioDraw 0 = false) :
    OnlyChanges [.instrDue, .held, .newKey, .ioErrorInput, .pollInput, .calls] s (s.pollPhase ia) := by
  rw [State.pollPhase_done ia hio]
  intro p hp
  cases p
  case instrDue | held | newKey | ioErrorInput | pollInput | calls => simp at hp
  all_goals rfl

/-- A poll that does not fail is one call, and leaves the key state it draws (R322, R324, R345). -/
theorem State.pollPhase_done_effect {s : State} (ia : Word) (hio : s.ioDraw 0 = false) :
    (s.pollPhase ia).held = s.nextPoll.held ∧ (s.pollPhase ia).newKey = s.nextPoll.newKey ∧
      (s.pollPhase ia).instrDue = s.instrDue + 1 ∧ (s.pollPhase ia).calls = s.calls ++ [s.pollCall] := by
  rw [State.pollPhase_done ia hio, remainingTime_eq_max]
  exact ⟨rfl, rfl, rfl, rfl⟩

/-- A tick phase that raised nothing is followed by the poll. -/
theorem State.afterDispatch_polls {u : State} {ia : Word} (hrun : u.status = .running)
    (htick : (u.tickPhase ia).status = .running) : u.afterDispatch ia = (u.tickPhase ia).pollPhase ia := by
  rcases u.afterDispatch_running ia hrun with ⟨-, e⟩ | ⟨hne, -⟩
  · exact e
  · exact absurd htick hne

/-! Without a tick the tail is the poll, after the tick's draw. -/

theorem State.afterDispatch_idle {u : State} (ia : Word) (hrun : u.status = .running) (htick : u.tickInput = false) :
    u.afterDispatch ia = u.takeTick.2.pollPhase ia := by
  have hphase := State.tickPhase_idle ia htick
  rw [State.afterDispatch_polls hrun (hphase ▸ hrun), hphase]

theorem State.afterDispatch_idle_onlyChanges {u : State} (ia : Word) (hrun : u.status = .running)
    (htick : u.tickInput = false) (hio : u.ioDraw 0 = false) :
    OnlyChanges [.held, .newKey, .instrDue, .calls, .tickInput, .ioErrorInput, .pollInput] u (u.afterDispatch ia) := by
  rw [State.afterDispatch_idle ia hrun htick]
  exact (u.takeTick_onlyChanges.trans (State.pollPhase_done_onlyChanges ia hio)).mono (by decide)

theorem State.tailRan_idle {u : State} (ia : Word) (hrun : u.status = .running) (htick : u.tickInput = false)
    (hio : u.ioDraw 0 = false) : TailRan u (u.afterDispatch ia) := by
  have hframe := State.afterDispatch_idle_onlyChanges ia hrun htick hio
  obtain ⟨hheld, hkey, hdue, hcalls⟩ := State.pollPhase_done_effect (s := u.takeTick.2) ia hio
  rw [← State.afterDispatch_idle ia hrun htick] at hheld hkey hdue hcalls
  exact {
    tick := fun ht => by cases htick.symm.trans ht
    noTick := fun _ => ⟨hframe .dt (by decide), hframe .st (by decide), hframe .beeper (by decide),
      hframe .screen (by decide), hframe .timerDue (by decide), hcalls⟩
    poll := ⟨hheld, hkey, hdue⟩ }

/-! With a tick the timers count down, whatever becomes of the flush and of the poll. -/

theorem State.tickPhase_ticked {u : State} (ia : Word) (htick : u.tickInput = true) : Ticked u (u.tickPhase ia) := by
  rw [State.tickPhase_tick ia htick]
  constructor
  case delay => simp [toNat_countDown]
  case sound => simp [toNat_countDown]
  case plays => simp +contextual [beepCommand]
  case pauses => simp +contextual [beepCommand]
  case due => simp

theorem Ticked.pollPhase {u t : State} (h : Ticked u t) (ia : Word) : Ticked u (t.pollPhase ia) := by
  obtain ⟨hdelay, hsound, hplays, hpauses, hdue⟩ := h
  exact ⟨by simpa using hdelay, by simpa using hsound, by simpa using hplays, by simpa using hpauses, by simpa using hdue⟩

theorem State.afterDispatch_ticked {u : State} (ia : Word) (hrun : u.status = .running) (htick : u.tickInput = true) :
    Ticked u (u.afterDispatch ia) := by
  have hticked := State.tickPhase_ticked ia htick
  rcases u.afterDispatch_running ia hrun with ⟨-, e⟩ | ⟨-, e⟩ <;> rw [e]
  · exact hticked.pollPhase ia
  · exact hticked

/-! With a tick and a flush that does not fail, the bitmap is presented (R327) and the poll finds its draws untouched. -/

theorem State.tickPhase_tick_onlyChanges {u : State} (ia : Word) (htick : u.tickInput = true) (hio : u.ioDraw 0 = false) :
    OnlyChanges [.dt, .st, .timerDue, .screen, .beeper, .tickInput, .ioErrorInput, .calls] u (u.tickPhase ia) := by
  have hflush := State.flush_done_onlyChanges (s := u.takeTick.2.tickTimers) ia hio
  rw [State.tickPhase_tick ia htick]
  exact ((u.takeTick_onlyChanges.trans (State.tickTimers_onlyChanges _)).trans hflush).mono (by decide)

theorem State.tickPhase_tick_effect {u : State} (ia : Word) (htick : u.tickInput = true) (hio : u.ioDraw 0 = false) :
    (u.tickPhase ia).screen = some u.fb ∧ (u.tickPhase ia).beeper = some (beepCommand (countDown u.st)) ∧
      (u.tickPhase ia).calls = u.calls ++ [.beep (beepCommand (countDown u.st)), .flush] ∧
      (u.tickPhase ia).ioDraw 0 = u.ioDraw 1 := by
  rw [State.tickPhase_tick ia htick, State.flush_done (s := u.takeTick.2.tickTimers) ia hio]
  exact ⟨rfl, rfl, by simp, State.ioDraw_of_rest (s := u) rfl 0⟩

theorem State.afterDispatch_tick {u : State} (ia : Word) (hrun : u.status = .running) (htick : u.tickInput = true)
    (hio : u.ioDraw 0 = false) : u.afterDispatch ia = (u.tickPhase ia).pollPhase ia :=
  State.afterDispatch_polls hrun ((State.tickPhase_tick_onlyChanges ia htick hio .status (by decide)).trans hrun)

theorem State.afterDispatch_tick_onlyChanges {u : State} (ia : Word) (hrun : u.status = .running)
    (htick : u.tickInput = true) (hflush : u.ioDraw 0 = false) (hpoll : u.ioDraw 1 = false) :
    OnlyChanges [.dt, .st, .beeper, .screen, .timerDue, .instrDue, .held, .newKey, .calls, .tickInput, .ioErrorInput,
      .pollInput] u (u.afterDispatch ia) := by
  obtain ⟨-, -, -, hio⟩ := State.tickPhase_tick_effect ia htick hflush
  have hframe := State.tickPhase_tick_onlyChanges ia htick hflush
  rw [State.afterDispatch_tick ia hrun htick hflush]
  exact (hframe.trans (State.pollPhase_done_onlyChanges ia (hio.trans hpoll))).mono (by decide)

/-- With a tick the tail is the timers, the Beeper's command, the flush, and then the poll. -/
theorem State.tailRan_tick {u : State} (ia : Word) (hrun : u.status = .running) (htick : u.tickInput = true)
    (hflush : u.ioDraw 0 = false) (hpoll : u.ioDraw 1 = false) : TailRan u (u.afterDispatch ia) := by
  have hticked := State.afterDispatch_ticked ia hrun htick
  obtain ⟨hscreen, hbeeper, htickCalls, hio⟩ := State.tickPhase_tick_effect ia htick hflush
  have hdraw := State.nextPoll_congr (State.tickPhase_tick_onlyChanges ia htick hflush .pollInput (by decide))
  have hpollCall := State.pollCall_congr (u.tickPhase_instrDue ia) hdraw
  obtain ⟨hheld, hkey, hdue, hcalls⟩ := State.pollPhase_done_effect ia (hio.trans hpoll)
  rw [hdraw] at hheld hkey
  rw [State.tickPhase_instrDue] at hdue
  rw [htickCalls, hpollCall, List.append_assoc] at hcalls
  rw [State.afterDispatch_tick ia hrun htick hflush] at hticked ⊢
  exact {
    tick := fun _ =>
      ⟨hticked, (State.pollPhase_screen ..).trans hscreen, _, (State.pollPhase_beeper ..).trans hbeeper, hcalls⟩
    noTick := fun ht => by cases htick.symm.trans ht
    poll := ⟨hheld, hkey, hdue⟩ }

/-- A cycle's tail none of whose calls fails: what it leaves, and nothing else (R322). -/
theorem State.afterDispatch_tailRan {u : State} (ia : Word) (hrun : u.status = .running)
    (hio : ∀ k < 2, u.ioDraw k = false) :
    TailRan u (u.afterDispatch ia) ∧
      OnlyChanges [.dt, .st, .beeper, .screen, .timerDue, .instrDue, .held, .newKey, .calls, .tickInput, .ioErrorInput,
        .pollInput] u (u.afterDispatch ia) := by
  have hio0 := hio 0 (by decide)
  have hio1 := hio 1 (by decide)
  cases htick : u.tickInput with
  | false => exact ⟨u.tailRan_idle ia hrun htick hio0, (u.afterDispatch_idle_onlyChanges ia hrun htick hio0).mono (by decide)⟩
  | true => exact ⟨u.tailRan_tick ia hrun htick hio0 hio1, u.afterDispatch_tick_onlyChanges ia hrun htick hio0 hio1⟩

/-! ### A key wait over a whole cycle (R277, R278) -/

theorem State.beginCycle_onlyChanges (s : State) : OnlyChanges [.stopInput, .calls] s s.beginCycle := by
  intro p hp
  cases p
  case stopInput | calls => simp at hp
  all_goals rfl

/-- An instruction that undoes the advance of PC, as a wait for a key and a jump to itself do, leaves the cycle its tail. -/
theorem step_of_dispatch_self {s : State} (hrun : s.status = .running) (hstop : s.stopInput = false)
    (hio : ∀ k < 2, s.ioDraw k = false) (hd : dispatch s.beginCycle = .next s.beginCycle) :
    step s = .next (s.beginCycle.afterDispatch s.pc) ∧ TailRan s.beginCycle (s.beginCycle.afterDispatch s.pc) ∧
      OnlyChanges [.dt, .st, .instrDue, .timerDue, .held, .newKey, .screen, .beeper, .stopInput, .tickInput, .ioErrorInput,
        .pollInput, .calls] s (s.beginCycle.afterDispatch s.pc) := by
  obtain ⟨htail, hframe⟩ := State.afterDispatch_tailRan (u := s.beginCycle) s.pc hrun hio
  refine ⟨?_, htail, (s.beginCycle_onlyChanges.trans hframe).mono (by decide)⟩
  rw [step_running hrun hstop, runCycle, hd]
  rfl

/-- Right after the fetch, a wait for a key with an empty latch is back in the state before it. -/
theorem exec_ldVxK_advance {s : State} (x : Reg) (h : s.newKey = none) : exec (.ldVxK x) s.advance = .next s := by
  have hpc : s.pc + 2 - 2 = s.pc := BitVec.add_sub_cancel ..
  rw [exec_ldVxK_waits (s := s.advance) x h, State.advance_pc, hpc]
  rfl

/-- Settles O53: the dispatch leaves the state as the cycle began it, so only the cycle's tail changes anything. -/
theorem keyWaitTakesOneCyclePerTry : Obligations.KeyWaitTakesOneCyclePerTry := by
  unfold Obligations.KeyWaitTakesOneCyclePerTry
  intro s x hrun hstop hpc hdec hnone hio
  have hd : dispatch s.beginCycle = .next s.beginCycle :=
    (dispatch_of_decodeWord (s := s.beginCycle) hpc hdec).trans (exec_ldVxK_advance (s := s.beginCycle) x hnone)
  obtain ⟨hstep, htail, hframe⟩ := step_of_dispatch_self hrun hstop hio hd
  exact ⟨_, hstep, (hframe .status (by decide)).trans hrun, hframe .pc (by decide), htail, hframe⟩

end Sys2Proof.Machine

/-! The rules of spec/60_exceptions.md: the start of a cycle and what ends it (R300, R302, R323), the faults of the instructions
(R300, R301, R306, R308), the tick and the poll (R322 to R329, R345), the environment's draws (R320, R321) and the Display's
draw (R342 to R344). -/

namespace Sys2Proof.Machine

/-! ### The stop input and illegal words (R302, R323) -/

theorem step_of_stopInput {s : State} (hrun : s.status = .running) (hstop : s.stopInput = true) :
    step s = .next { s.beginCycle with status := .stopped } := by
  simp only [step, cycle, hrun, hstop, if_true]

/-- Settles O10: the step ends with the start of the cycle, stopped. -/
theorem stopInputEndsRun : Obligations.StopInputEndsRun := by
  unfold Obligations.StopInputEndsRun
  intro s hrun hstop
  refine ⟨_, step_of_stopInput hrun hstop, rfl, rfl, rfl, fun p hp => ?_⟩
  cases p
  case status | stopInput | calls => simp at hp
  all_goals rfl

theorem dispatch_of_illegal {s : State} {e : DecodeError} (hpc : s.pc.toNat + 1 < Config.memSize)
    (hd : decodeWord (s.wordAt s.pc.toNat) = .error e) :
    dispatch s = .next (s.advance.raise s.pc (.illegalInstruction (s.wordAt s.pc.toNat))) := by
  rcases dispatch_cases s with ⟨hge, -⟩ | ⟨-, -, h⟩ | ⟨-, i, hi, -⟩
  · exact absurd hpc (Nat.not_lt_of_le hge)
  · exact h
  · cases hi.symm.trans hd

/-- Settles O9: a word of no row does not decode (`decoderFollowsTable`), and the fault of the dispatch ends the cycle. -/
theorem illegalWordFaults : Obligations.IllegalWordFaults := by
  unfold Obligations.IllegalWordFaults
  intro s hrun hstop hpc hnone
  obtain ⟨-, -, hillegal⟩ := decoderFollowsTable
  have hd := dispatch_of_illegal (s := s.beginCycle) hpc (hillegal _ hnone)
  exact ⟨_, step_of_dispatch_ended hrun hstop hd (by simp), rfl, rfl, rfl,
    ((beginCycle_advance_onlyChanges s).trans (State.raise_onlyChanges _ _ _)).mono (by decide)⟩

/-! ### Which instruction raises which fault, and what it leaves (R300, R301, R306, R308) -/

/-- The column "raised by" of R301: the faults an instruction can end in. -/
def MayRaise : Instr → FaultKind → Prop
  | .cls, k => k = .peripheralError .clear
  | .ret, k => k = .stackUnderflow
  | .call _, k => k = .stackOverflow 16
  | .drw _ _ _, k => k = .peripheralError .draw ∨ ∃ a : BitVec 17, 4096 ≤ a.toNat ∧ k = .memoryBounds a .read
  | .skp _, k | .sknp _, k => ∃ v : Byte, 16 ≤ v.toNat ∧ k = .keyRange v
  | .ldB _, k | .store _, k => ∃ a : BitVec 17, 4096 ≤ a.toNat ∧ k = .memoryBounds a .write
  | .load _, k => ∃ a : BitVec 17, 4096 ≤ a.toNat ∧ k = .memoryBounds a .read
  | _, _ => False

/-- `t` is `s` with a fault raised in it, at once or after the Display call that failed. -/
def FaultLeft (s t : State) (k : FaultKind) : Prop :=
  t = s.raised k ∨ ∃ c, t = (s.callIo c).2.raised k

theorem FaultLeft.status {s t : State} {k : FaultKind} (h : FaultLeft s t k) : t.status = .faulted ⟨k, s.pc - 2⟩ := by
  rcases h with rfl | ⟨c, rfl⟩ <;> rfl

theorem FaultLeft.onlyChanges {s t : State} {k : FaultKind} (h : FaultLeft s t k) :
    OnlyChanges [.status, .ioErrorInput, .calls] s t := by
  rcases h with rfl | ⟨c, rfl⟩
  · exact (s.raise_onlyChanges _ _).mono (by decide)
  · exact ((s.callIo_onlyChanges c).trans (State.raise_onlyChanges _ _ _)).mono (by decide)

/-- A data address has 17 bits, so a record's address out of memory is the address itself (R62). -/
theorem State.le_toNat_ofNat_dataAddr {s : State} {k : Nat} (hk : k < 16) (h : Config.memSize ≤ s.dataAddr k) :
    4096 ≤ (BitVec.ofNat 17 (s.dataAddr k)).toNat := by
  have hlt : s.dataAddr k < 2 ^ 17 := by
    unfold State.dataAddr
    omega
  rwa [BitVec.toNat_ofNat, Nat.mod_eq_of_lt hlt]

/-- An instruction goes on in the run state it found, or ends in a fault of its own row of R301. -/
theorem exec_status_or_fault {i : Instr} {s t : State} (h : exec i s = .next t) :
    t.status = s.status ∨ ∃ k, MayRaise i k ∧ FaultLeft s t k := by
  replace h := exec_next h
  cases i
  case cls =>
    rcases h with ⟨-, rfl⟩ | ⟨-, rfl⟩
    · exact .inr ⟨_, rfl, .inr ⟨_, rfl⟩⟩
    · exact .inl rfl
  case ret =>
    rcases h with ⟨-, rfl⟩ | ⟨_, -, rfl⟩
    · exact .inr ⟨_, rfl, .inl rfl⟩
    · exact .inl rfl
  case call =>
    rcases h with ⟨hsp, rfl⟩ | ⟨_, rfl⟩
    · have hsp16 : s.sp = 16 := BitVec.eq_of_toNat_eq hsp
      exact .inr ⟨_, congrArg _ hsp16, .inl rfl⟩
    · exact .inl rfl
  case drw x y n =>
    rcases h with ⟨-, hb, rfl⟩ | ⟨-, _, -, ⟨-, rfl⟩ | ⟨-, rfl⟩⟩
    · exact .inr ⟨_, .inr ⟨_, State.le_toNat_ofNat_dataAddr (by omega) hb, rfl⟩, .inl rfl⟩
    · exact .inr ⟨_, .inl rfl, .inr ⟨_, rfl⟩⟩
    · exact .inl rfl
  case skp | sknp =>
    rcases h with ⟨hv, rfl⟩ | ⟨_, rfl⟩
    · exact .inr ⟨_, ⟨_, hv, rfl⟩, .inl rfl⟩
    · exact .inl (State.skipIf_status ..)
  case ldB =>
    rcases h with ⟨hb, rfl⟩ | ⟨-, rfl⟩
    · exact .inr ⟨_, ⟨_, State.le_toNat_ofNat_dataAddr (by decide) hb, rfl⟩, .inl rfl⟩
    · exact .inl rfl
  case store x | load x =>
    rcases h with ⟨hb, rfl⟩ | ⟨-, rfl⟩
    · exact .inr ⟨_, ⟨_, State.le_toNat_ofNat_dataAddr x.isLt hb, rfl⟩, .inl rfl⟩
    · exact .inl (by simp)
  case ldVxK => rcases h with ⟨_, -, rfl⟩ | ⟨-, rfl⟩ <;> exact .inl rfl
  all_goals
    obtain rfl := h
    exact .inl (by simp)

/-- A running machine's instruction that leaves a fault record raised it, with its own address (R300, R301). -/
theorem exec_faulted {i : Instr} {s t : State} {r : FaultRecord} (hrun : s.status = .running) (h : exec i s = .next t)
    (hr : t.status = .faulted r) : MayRaise i r.kind ∧ FaultLeft s t r.kind ∧ r.ia = s.pc - 2 := by
  rcases exec_status_or_fault h with hs | ⟨k, hk, hleft⟩
  · cases hr.symm.trans (hs.trans hrun)
  · cases hr.symm.trans hleft.status
    exact ⟨hk, hleft, rfl⟩

/-- Settles O22: a raise changes the run state alone, and the failed call its record and its draw (`FaultLeft`). -/
theorem instructionFaultsArePrecise : Obligations.InstructionFaultsArePrecise := by
  unfold Obligations.InstructionFaultsArePrecise
  intro i s t r hrun h hr
  obtain ⟨-, hleft, hia⟩ := exec_faulted hrun h hr
  exact ⟨hia, hleft.onlyChanges⟩

/-- Settles O23: `MayRaise`, row by row. -/
theorem faultKindsByInstruction : Obligations.FaultKindsByInstruction := by
  unfold Obligations.FaultKindsByInstruction
  intro i s t r hrun h hr
  obtain ⟨hk, -, -⟩ := exec_faulted hrun h hr
  cases i
  case cls => exact .inl ⟨rfl, hk⟩
  case ret => exact .inr (.inl ⟨rfl, hk⟩)
  case call => exact .inr (.inr (.inl ⟨_, rfl, hk⟩))
  case drw => exact .inr (.inr (.inr (.inl ⟨_, _, _, rfl, hk⟩)))
  case skp => exact .inr (.inr (.inr (.inr (.inl ⟨_, .inl rfl, hk⟩))))
  case sknp => exact .inr (.inr (.inr (.inr (.inl ⟨_, .inr rfl, hk⟩))))
  case ldB => exact .inr (.inr (.inr (.inr (.inr (.inl ⟨_, .inl rfl, hk⟩)))))
  case store => exact .inr (.inr (.inr (.inr (.inr (.inl ⟨_, .inr rfl, hk⟩)))))
  case load => exact .inr (.inr (.inr (.inr (.inr (.inr ⟨_, rfl, hk⟩)))))
  all_goals exact hk.elim

/-- A dispatch that faults changes the run state and PC alone, besides the record of a failed call and its draw. -/
theorem dispatch_faulted_onlyChanges {s t : State} {r : FaultRecord} (hrun : s.status = .running)
    (h : dispatch s = .next t) (hr : t.status = .faulted r) :
    OnlyChanges [.status, .pc, .ioErrorInput, .calls] s t := by
  have hadvance : OnlyChanges [.pc] s s.advance := s.setPc_onlyChanges _
  rcases dispatch_cases s with ⟨-, e⟩ | ⟨-, -, e⟩ | ⟨-, i, -, e⟩
  · cases h.symm.trans e
    exact (s.raise_onlyChanges _ _).mono (by decide)
  · cases h.symm.trans e
    exact (hadvance.trans (State.raise_onlyChanges _ _ _)).mono (by decide)
  · obtain ⟨-, hleft, -⟩ := exec_faulted (s := s.advance) hrun (e.symm.trans h) hr
    exact (hadvance.trans hleft.onlyChanges).mono (by decide)

/-- Settles O12: the faulted state is the cycle's end, and lies in the frame of a faulting dispatch. -/
theorem faultEndsCycle : Obligations.FaultEndsCycle := by
  unfold Obligations.FaultEndsCycle
  intro s t r hrun hstop hd hr
  have hframe := s.beginCycle_onlyChanges.trans (dispatch_faulted_onlyChanges (s := s.beginCycle) hrun hd hr)
  exact ⟨step_of_dispatch_ended hrun hstop hd (by simp [hr]), hframe .timerDue (by decide), hframe .instrDue (by decide),
    hframe .dt (by decide), hframe .st (by decide), hframe .beeper (by decide), hframe .screen (by decide),
    hframe .held (by decide), hframe .newKey (by decide)⟩

/-! ### What the tail's phases call and draw, whether or not a call fails (R320 to R322) -/

theorem State.flush_calls (s : State) (ia : Word) : (s.flush ia).calls = s.calls ++ [.flush] := by
  cases h : s.ioDraw 0 <;> simp [State.flush_done, State.flush_failed, h]

theorem State.flush_inputs (s : State) (ia : Word) :
    (s.flush ia).inputs = { s.inputs with ioError := s.inputs.ioError.rest } := by
  cases h : s.ioDraw 0 <;> simp [State.flush_done, State.flush_failed, h]

theorem State.pollPhase_calls (s : State) (ia : Word) : (s.pollPhase ia).calls = s.calls ++ [s.pollCall] := by
  cases h : s.ioDraw 0 <;> simp [State.pollPhase_done, State.pollPhase_failed, h, remainingTime_eq_max, State.pollCall]

theorem State.pollPhase_inputs (s : State) (ia : Word) :
    (s.pollPhase ia).inputs = { s.inputs with ioError := s.inputs.ioError.rest, poll := s.inputs.poll.rest } := by
  cases h : s.ioDraw 0 <;> simp [State.pollPhase_done, State.pollPhase_failed, h]

theorem State.tickPhase_tick_calls {u : State} (ia : Word) (htick : u.tickInput = true) :
    ∃ c, (u.tickPhase ia).beeper = some c ∧ (u.tickPhase ia).calls = u.calls ++ [.beep c, .flush] := by
  rw [State.tickPhase_tick ia htick, State.flush_calls]
  exact ⟨beepCommand (countDown u.st), by simp, by simp⟩

theorem State.tickPhase_tick_inputs {u : State} (ia : Word) (htick : u.tickInput = true) :
    (u.tickPhase ia).inputs = { u.inputs with tick := u.inputs.tick.rest, ioError := u.inputs.ioError.rest } := by
  rw [State.tickPhase_tick ia htick, State.flush_inputs]
  rfl

/-! A tail whose flush did not fail takes the draws of both its phases. -/

theorem State.afterDispatch_idle_inputs {u : State} (ia : Word) (hrun : u.status = .running) (htick : u.tickInput = false) :
    (u.afterDispatch ia).inputs = { u.inputs with
      tick := u.inputs.tick.rest, ioError := u.inputs.ioError.rest, poll := u.inputs.poll.rest } := by
  rw [State.afterDispatch_idle ia hrun htick, State.pollPhase_inputs]
  rfl

theorem State.afterDispatch_tick_inputs {u : State} (ia : Word) (hrun : u.status = .running) (htick : u.tickInput = true)
    (hflush : u.ioDraw 0 = false) :
    (u.afterDispatch ia).inputs = { u.inputs with
      tick := u.inputs.tick.rest, ioError := u.inputs.ioError.skip 2, poll := u.inputs.poll.rest } := by
  rw [State.afterDispatch_tick ia hrun htick hflush, State.pollPhase_inputs, State.tickPhase_tick_inputs ia htick]
  simp [Feed.rest_eq_skip]

/-- A ticking tail whose flush did not fail: the bitmap is presented, and the poll's call follows, failed or not. -/
theorem State.afterDispatch_tick_effect {u : State} (ia : Word) (hrun : u.status = .running) (htick : u.tickInput = true)
    (hflush : u.ioDraw 0 = false) :
    (u.afterDispatch ia).screen = some u.fb ∧
      ∃ c, (u.afterDispatch ia).beeper = some c ∧
        (u.afterDispatch ia).calls = u.calls ++ [.beep c, .flush, u.pollCall] := by
  obtain ⟨hscreen, -, -, -⟩ := State.tickPhase_tick_effect ia htick hflush
  obtain ⟨c, hbeeper, hcalls⟩ := State.tickPhase_tick_calls ia htick
  have hdraw := State.nextPoll_congr (State.tickPhase_tick_onlyChanges ia htick hflush .pollInput (by decide))
  have hpollCall := State.pollCall_congr (u.tickPhase_instrDue ia) hdraw
  rw [State.afterDispatch_tick ia hrun htick hflush, State.pollPhase_calls, hcalls, hpollCall]
  exact ⟨(State.pollPhase_screen ..).trans hscreen, c, (State.pollPhase_beeper ..).trans hbeeper, by simp⟩

/-! ### The tail of a cycle none of whose calls fails (R322, R325 to R328, R345) -/

/-- Settles O13: `TailRan` with a tick, and the draws of both phases. -/
theorem tickCountsTimersDown : Obligations.TickCountsTimersDown := by
  unfold Obligations.TickCountsTimersDown
  intro u ia hrun htick hflush hpoll
  obtain ⟨htail, -, hheld, hkey, hdue⟩ := State.tailRan_tick ia hrun htick hflush hpoll
  obtain ⟨hticked, hscreen, c, hbeeper, hcalls⟩ := htail htick
  have hinputs := State.afterDispatch_tick_inputs ia hrun htick hflush
  exact ⟨_, c, rfl, hticked, hbeeper, hscreen, hdue, hheld, hkey, hcalls, congrArg Inputs.tick hinputs,
    congrArg Inputs.ioError hinputs, congrArg Inputs.poll hinputs,
    State.afterDispatch_tick_onlyChanges ia hrun htick hflush hpoll⟩

/-- Settles O14: `TailRan` without a tick, and the draws of the poll. -/
theorem pollSetsKeyState : Obligations.PollSetsKeyState := by
  unfold Obligations.PollSetsKeyState
  intro u ia hrun htick hpoll
  obtain ⟨-, htail, hheld, hkey, hdue⟩ := State.tailRan_idle ia hrun htick hpoll
  obtain ⟨-, -, -, -, -, hcalls⟩ := htail htick
  have hinputs := State.afterDispatch_idle_inputs ia hrun htick
  exact ⟨_, rfl, hheld, hkey, hdue, hcalls, congrArg Inputs.tick hinputs, congrArg Inputs.ioError hinputs,
    congrArg Inputs.poll hinputs, State.afterDispatch_idle_onlyChanges ia hrun htick hpoll⟩

/-! ### A flush or a poll that fails (R300, R305) -/

theorem State.flush_failed_onlyChanges {s : State} (ia : Word) (hio : s.ioDraw 0 = true) :
    OnlyChanges [.status, .calls, .ioErrorInput] s (s.flush ia) := by
  rw [State.flush_failed ia hio]
  exact ((s.callIo_onlyChanges _).trans (State.raise_onlyChanges _ _ _)).mono (by decide)

theorem State.takePoll_onlyChanges (s : State) : OnlyChanges [.pollInput] s s.takePoll.2 := by
  intro p hp
  cases p
  case pollInput => simp at hp
  all_goals rfl

/-- A failed poll changes no key state and no due time. -/
theorem State.pollPhase_failed_onlyChanges {s : State} (ia : Word) (hio : s.ioDraw 0 = true) :
    OnlyChanges [.status, .calls, .ioErrorInput, .pollInput] s (s.pollPhase ia) := by
  rw [State.pollPhase_failed ia hio]
  exact ((s.takePoll_onlyChanges.trans (State.callIo_onlyChanges _ _)).trans (State.raise_onlyChanges _ _ _)).mono (by decide)

theorem State.pollPhase_failed_status {s : State} (ia : Word) (hio : s.ioDraw 0 = true) :
    (s.pollPhase ia).status = .faulted ⟨.peripheralError .poll, ia⟩ := by
  rw [State.pollPhase_failed ia hio, State.raise_status]

/-- A ticking tail whose flush fails ends there, in the flush's fault. -/
theorem State.afterDispatch_flush_failed {u : State} (ia : Word) (hrun : u.status = .running) (htick : u.tickInput = true)
    (hio : u.ioDraw 0 = true) :
    u.afterDispatch ia = u.tickPhase ia ∧ (u.tickPhase ia).status = .faulted ⟨.peripheralError .flush, ia⟩ ∧
      OnlyChanges [.status, .dt, .st, .beeper, .timerDue, .calls, .tickInput, .ioErrorInput] u (u.tickPhase ia) := by
  have hstatus : (u.tickPhase ia).status = .faulted ⟨.peripheralError .flush, ia⟩ := by
    rw [State.tickPhase_tick ia htick, State.flush_failed (s := u.takeTick.2.tickTimers) ia hio, State.raise_status]
  have hflush := State.flush_failed_onlyChanges (s := u.takeTick.2.tickTimers) ia hio
  refine ⟨?_, hstatus, ?_⟩
  · rcases u.afterDispatch_running ia hrun with ⟨ht, -⟩ | ⟨-, e⟩
    · cases ht.symm.trans hstatus
    · exact e
  · rw [State.tickPhase_tick ia htick]
    exact ((u.takeTick_onlyChanges.trans (State.tickTimers_onlyChanges _)).trans hflush).mono (by decide)

/-- Settles O15: a failed flush, a failed poll without a tick, and a failed poll after a tick. -/
theorem peripheralFailureInTail : Obligations.PeripheralFailureInTail := by
  unfold Obligations.PeripheralFailureInTail
  refine ⟨fun u ia hrun htick hio => ?_, fun u ia hrun htick hio => ?_, fun u ia hrun htick hflush hpoll => ?_⟩
  · obtain ⟨e, hstatus, hframe⟩ := State.afterDispatch_flush_failed ia hrun htick hio
    obtain ⟨c, hbeeper, hcalls⟩ := State.tickPhase_tick_calls ia htick
    have hinputs := State.tickPhase_tick_inputs ia htick
    exact ⟨_, c, e, hstatus, State.tickPhase_ticked ia htick, hbeeper, hcalls, congrArg Inputs.tick hinputs,
      congrArg Inputs.ioError hinputs, hframe⟩
  · have hinputs := State.afterDispatch_idle_inputs ia hrun htick
    rw [State.afterDispatch_idle ia hrun htick] at hinputs ⊢
    exact ⟨_, rfl, State.pollPhase_failed_status ia hio, State.pollPhase_calls .., congrArg Inputs.tick hinputs,
      congrArg Inputs.ioError hinputs, congrArg Inputs.poll hinputs,
      (u.takeTick_onlyChanges.trans (State.pollPhase_failed_onlyChanges ia hio)).mono (by decide)⟩
  · have hticked := State.afterDispatch_ticked ia hrun htick
    have hinputs := State.afterDispatch_tick_inputs ia hrun htick hflush
    obtain ⟨hscreen, c, hbeeper, hcalls⟩ := State.afterDispatch_tick_effect ia hrun htick hflush
    obtain ⟨-, -, -, hnext⟩ := State.tickPhase_tick_effect ia htick hflush
    have hio := hnext.trans hpoll
    rw [State.afterDispatch_tick ia hrun htick hflush] at hticked hinputs hscreen hbeeper hcalls ⊢
    exact ⟨_, c, rfl, State.pollPhase_failed_status ia hio, hticked, hbeeper, hscreen, hcalls, congrArg Inputs.tick hinputs,
      congrArg Inputs.ioError hinputs, congrArg Inputs.poll hinputs,
      ((State.tickPhase_tick_onlyChanges ia htick hflush).trans (State.pollPhase_failed_onlyChanges ia hio)).mono
        (by decide)⟩

/-! ### The draws of a cycle (R321, R322) -/

/-- From `s` to `t` calls were made, and a failure was drawn for each of them that may fail (R305, R321). -/
def DrawsFailures (s t : State) : Prop :=
  ∃ cs, t.calls = s.calls ++ cs ∧ t.inputs.ioError = s.inputs.ioError.skip (cs.countP PortCall.mayFail)

theorem DrawsFailures.of_same {s t : State} (hcalls : t.calls = s.calls) (hio : t.inputs.ioError = s.inputs.ioError) :
    DrawsFailures s t :=
  ⟨[], by rw [hcalls, List.append_nil], hio⟩

theorem DrawsFailures.trans {s t u : State} (hst : DrawsFailures s t) (htu : DrawsFailures t u) : DrawsFailures s u := by
  obtain ⟨cs, hcalls, hio⟩ := hst
  obtain ⟨ds, hcalls', hio'⟩ := htu
  refine ⟨cs ++ ds, ?_, ?_⟩
  · rw [hcalls', hcalls, List.append_assoc]
  · rw [hio', hio, Feed.skip_skip, List.countP_append]

/-- An instruction draws a failure for its Display call, if it makes one, and at most one random byte. -/
theorem exec_draws {i : Instr} {s t : State} (h : exec i s = .next t) :
    DrawsFailures s t ∧ (t.inputs.rand = s.inputs.rand ∨ t.inputs.rand = s.inputs.rand.rest) := by
  replace h := exec_next h
  cases i
  case cls => rcases h with ⟨-, rfl⟩ | ⟨-, rfl⟩ <;> exact ⟨⟨[.clear], rfl, rfl⟩, .inl rfl⟩
  case drw =>
    rcases h with ⟨-, -, rfl⟩ | ⟨-, _, -, ⟨-, rfl⟩ | ⟨-, rfl⟩⟩
    · exact ⟨.of_same rfl rfl, .inl rfl⟩
    · exact ⟨⟨[.draw ..], rfl, rfl⟩, .inl rfl⟩
    · exact ⟨⟨[.draw ..], rfl, rfl⟩, .inl rfl⟩
  case rnd =>
    obtain rfl := h
    exact ⟨.of_same rfl rfl, .inr rfl⟩
  case ret => rcases h with ⟨-, rfl⟩ | ⟨_, -, rfl⟩ <;> exact ⟨.of_same rfl rfl, .inl rfl⟩
  case call => rcases h with ⟨-, rfl⟩ | ⟨_, rfl⟩ <;> exact ⟨.of_same rfl rfl, .inl rfl⟩
  case ldB | store | load =>
    rcases h with ⟨-, rfl⟩ | ⟨-, rfl⟩ <;> exact ⟨.of_same (by simp) (by simp), .inl (by simp)⟩
  case skp | sknp => rcases h with ⟨-, rfl⟩ | ⟨_, rfl⟩ <;> exact ⟨.of_same (by simp) (by simp), .inl (by simp)⟩
  case ldVxK => rcases h with ⟨_, -, rfl⟩ | ⟨-, rfl⟩ <;> exact ⟨.of_same rfl rfl, .inl rfl⟩
  all_goals
    obtain rfl := h
    exact ⟨.of_same (by simp) (by simp), .inl (by simp)⟩

/-- A dispatch draws what its instruction does, and neither a stop, nor a tick, nor a poll. -/
theorem dispatch_draws {s t : State} (h : dispatch s = .next t) :
    DrawsFailures s t ∧ (t.inputs.rand = s.inputs.rand ∨ t.inputs.rand = s.inputs.rand.rest) ∧
      t.inputs.stop = s.inputs.stop ∧ t.inputs.tick = s.inputs.tick ∧ t.inputs.poll = s.inputs.poll := by
  rcases dispatch_cases s with ⟨-, e⟩ | ⟨-, -, e⟩ | ⟨-, i, -, e⟩
  · cases h.symm.trans e
    exact ⟨.of_same rfl rfl, .inl rfl, rfl, rfl, rfl⟩
  · cases h.symm.trans e
    exact ⟨.of_same rfl rfl, .inl rfl, rfl, rfl, rfl⟩
  · have hexec := e.symm.trans h
    obtain ⟨hio, hrand⟩ := exec_draws hexec
    obtain ⟨hparts, -⟩ := noInstructionActsForTheScheduler i s.advance t hexec
    exact ⟨hio, hrand, hparts .stopInput (by decide), hparts .tickInput (by decide), hparts .pollInput (by decide)⟩

/-- The tick phase draws the tick, and a failure for its flush. -/
theorem State.tickPhase_draws (u : State) (ia : Word) :
    DrawsFailures u (u.tickPhase ia) ∧ (u.tickPhase ia).inputs.stop = u.inputs.stop ∧
      (u.tickPhase ia).inputs.rand = u.inputs.rand ∧ (u.tickPhase ia).inputs.tick = u.inputs.tick.rest ∧
      (u.tickPhase ia).inputs.poll = u.inputs.poll := by
  cases htick : u.tickInput with
  | false =>
    rw [State.tickPhase_idle ia htick]
    exact ⟨.of_same rfl rfl, rfl, rfl, rfl, rfl⟩
  | true =>
    obtain ⟨c, -, hcalls⟩ := State.tickPhase_tick_calls ia htick
    have hinputs := State.tickPhase_tick_inputs ia htick
    refine ⟨⟨_, hcalls, ?_⟩, ?_⟩ <;> rw [hinputs]
    · rfl
    · exact ⟨rfl, rfl, rfl, rfl⟩

theorem State.pollPhase_drawsFailures (u : State) (ia : Word) : DrawsFailures u (u.pollPhase ia) :=
  ⟨_, State.pollPhase_calls .., congrArg Inputs.ioError (State.pollPhase_inputs ..)⟩

/-- A cycle's tail draws a failure for each of its Display and Keyboard calls; and one tick and one poll when it runs to its
end. -/
theorem State.afterDispatch_draws (u : State) (ia : Word) :
    DrawsFailures u (u.afterDispatch ia) ∧ (u.afterDispatch ia).inputs.stop = u.inputs.stop ∧
      (u.afterDispatch ia).inputs.rand = u.inputs.rand ∧
      ((u.afterDispatch ia).status = .running →
        (u.afterDispatch ia).inputs.tick = u.inputs.tick.rest ∧ (u.afterDispatch ia).inputs.poll = u.inputs.poll.rest) := by
  obtain ⟨hio, hstop, hrand, htick, hpoll⟩ := u.tickPhase_draws ia
  by_cases hrun : u.status = .running
  · rcases u.afterDispatch_running ia hrun with ⟨-, e⟩ | ⟨hended, e⟩ <;> rw [e]
    · refine ⟨hio.trans (State.pollPhase_drawsFailures ..), ?_⟩
      rw [State.pollPhase_inputs]
      exact ⟨hstop, hrand, fun _ => ⟨htick, congrArg Feed.rest hpoll⟩⟩
    · exact ⟨hio, hstop, hrand, fun h => absurd h hended⟩
  · rw [State.afterDispatch_ended ia hrun]
    exact ⟨.of_same rfl rfl, rfl, rfl, fun h => absurd h hrun⟩

/-- Settles O58: the start of the cycle draws the stop input; the dispatch and the tail draw the rest. -/
theorem eachCycleTakesItsDraws : Obligations.EachCycleTakesItsDraws := by
  unfold Obligations.EachCycleTakesItsDraws
  intro s t h
  obtain ⟨-, ⟨-, rfl⟩ | ⟨-, u, hd, rfl⟩⟩ := step_next_cases h
  · exact ⟨rfl, rfl, (fun hrun => by cases hrun), .inl rfl⟩
  · obtain ⟨hio, hrand, hstop, htick, hpoll⟩ := dispatch_draws hd
    obtain ⟨hio', hstop', hrand', hend⟩ := u.afterDispatch_draws s.pc
    obtain ⟨cs, hcalls, hskip⟩ := hio.trans hio'
    rw [State.beginCycle_calls, List.nil_append] at hcalls
    rw [hstop', hrand', hcalls]
    refine ⟨hstop, hskip, fun hrun => ?_, hrand⟩
    obtain ⟨htick', hpoll'⟩ := hend hrun
    exact ⟨htick'.trans (congrArg Feed.rest htick), hpoll'.trans (congrArg Feed.rest hpoll)⟩

theorem Feed.rest_of_pending {α : Type} {f : Feed α} {d : α} {ds : List α} (h : f.pending = d :: ds) :
    f.rest.pending = ds ∧ f.rest.drawn = f.drawn + 1 :=
  ⟨congrArg (List.drop 1) h, rfl⟩

theorem Feed.nth_of_lt_pending {α : Type} (f : Feed α) (free : Nat → α) {k : Nat} (h : k < f.pending.length) :
    f.nth free k = f.pending[k] :=
  List.getD_eq_getElem _ _ h

/-- Settles O57: each port takes the head of what is ready (`Feed.nth_zero_of_pending`) and leaves the tail. -/
theorem readyDrawsAreTakenInOrder : Obligations.ReadyDrawsAreTakenInOrder := by
  unfold Obligations.ReadyDrawsAreTakenInOrder
  intro s
  refine ⟨fun d ds h => ⟨?_, Feed.rest_of_pending h⟩, fun d ds h => ⟨?_, Feed.rest_of_pending h⟩,
    fun d ds h => ⟨?_, Feed.rest_of_pending h⟩, fun d ds h => ⟨?_, Feed.rest_of_pending h⟩,
    fun k h => Feed.nth_of_lt_pending _ _ h, fun k => ⟨rfl, rfl⟩⟩
  all_goals exact Feed.nth_zero_of_pending _ h

/-! ### The reference schedule (R329) -/

theorem refTickDue_iff (cpuHz k m : Nat) : refTickDue cpuHz k m = true ↔ (m + 1) * cpuHz ≤ 60 * k :=
  decide_eq_true_iff

/-- With CPU_HZ at least 60, `m_k` is the quotient of 60 (k − 1) by CPU_HZ: no cycle misses a tick. -/
theorem refTicksBefore_bounds {cpuHz : Nat} (hhz : 60 ≤ cpuHz) (k : Nat) :
    refTicksBefore cpuHz k * cpuHz ≤ 60 * (k - 1) ∧ 60 * (k - 1) < (refTicksBefore cpuHz k + 1) * cpuHz := by
  induction k with
  | zero =>
    simp only [refTicksBefore]
    omega
  | succ k ih =>
    obtain ⟨hlo, hhi⟩ := ih
    simp only [refTicksBefore, refCount, refTickDue_iff, Nat.add_sub_cancel]
    split_ifs with hdue
    · have hnext := Nat.add_one_mul (refTicksBefore cpuHz k + 1) cpuHz
      exact ⟨hdue, by omega⟩
    · exact ⟨by omega, Nat.lt_of_not_le hdue⟩

/-- Settles O56: k = ceil(j CPU_HZ / 60) says 60 (k − 1) < j CPU_HZ ≤ 60 k, and the least such j is the number of the next
tick, `m_k` + 1. -/
theorem referenceScheduleTicks : Obligations.ReferenceScheduleTicks := by
  unfold Obligations.ReferenceScheduleTicks
  intro cpuHz k hhz
  obtain ⟨hlo, hhi⟩ := refTicksBefore_bounds hhz k
  rw [refTick, refTickDue_iff]
  constructor
  · intro hdue
    exact ⟨refTicksBefore cpuHz k + 1, Nat.le_add_left .., by omega⟩
  · rintro ⟨j, hj, hk⟩
    have hpos : cpuHz ≤ j * cpuHz := Nat.le_mul_of_pos_left cpuHz hj
    have hnext : refTicksBefore cpuHz k < j := Nat.lt_of_mul_lt_mul_right (a := cpuHz) (by omega)
    calc (refTicksBefore cpuHz k + 1) * cpuHz ≤ j * cpuHz := Nat.mul_le_mul_right _ hnext
      _ ≤ 60 * k := by omega

/-! ### The 1 bits of a sprite, in the order they are drawn (R342) -/

/-- Where the 1 bits among bits b, b+1, …, `k` of them, of a row byte go, before any edge. -/
def rowBits (cx py : Nat) (byte : Byte) (b k : Nat) : List (Nat × Nat) :=
  ((List.range' b k).filter fun j => byte.getLsbD (7 - j)).map fun j => (cx + j, py)

/-- Where the 1 bits of a sprite go, before any edge. -/
def spriteBits (cx : Nat) : Nat → List Byte → List (Nat × Nat)
  | _, [] => []
  | py, byte :: rest => rowBits cx py byte 0 8 ++ spriteBits cx (py + 1) rest

/-- The bits of a list of places, plotted one after the other. -/
def plotAll (p : Config.EdgePolicy) (cs : List (Nat × Nat)) (acc : Framebuffer × Bool) : Framebuffer × Bool :=
  cs.foldl (fun acc c => plot p c.1 c.2 acc) acc

theorem plotAll_append (p : Config.EdgePolicy) (cs ds : List (Nat × Nat)) (acc : Framebuffer × Bool) :
    plotAll p (cs ++ ds) acc = plotAll p ds (plotAll p cs acc) :=
  List.foldl_append

theorem drawBits_eq_plotAll (p : Config.EdgePolicy) (cx py : Nat) (byte : Byte) (b k : Nat) (acc : Framebuffer × Bool) :
    drawBits p cx py byte b k acc = plotAll p (rowBits cx py byte b k) acc := by
  induction k generalizing b acc with
  | zero => rfl
  | succ k ih =>
    rw [drawBits, ih, rowBits, rowBits, List.range'_succ, List.filter_cons]
    split_ifs <;> rfl

theorem drawRows_eq_plotAll (p : Config.EdgePolicy) (cx py : Nat) (bytes : List Byte) (acc : Framebuffer × Bool) :
    drawRows p cx py bytes acc = plotAll p (spriteBits cx py bytes) acc := by
  induction bytes generalizing py acc with
  | nil => rfl
  | cons byte rest ih => rw [drawRows, ih, drawBits_eq_plotAll, spriteBits, plotAll_append]

theorem mem_rowBits {cx py b k : Nat} {byte : Byte} {c : Nat × Nat} :
    c ∈ rowBits cx py byte b k ↔ ∃ j, (b ≤ j ∧ j < b + k) ∧ byte.getLsbD (7 - j) = true ∧ c = (cx + j, py) := by
  simp only [rowBits, List.mem_map, List.mem_filter, List.mem_range'_1, and_assoc, eq_comm (a := c)]

theorem mem_spriteBits {cx py : Nat} {bytes : List Byte} {c : Nat × Nat} :
    c ∈ spriteBits cx py bytes ↔ ∃ r b, r < bytes.length ∧ b < 8 ∧ (bytes.getD r 0).getLsbD (7 - b) = true ∧
      c = (cx + b, py + r) := by
  induction bytes generalizing py with
  | nil => simp [spriteBits]
  | cons byte rest ih =>
    rw [spriteBits, List.mem_append, mem_rowBits, ih]
    constructor
    · rintro (⟨b, ⟨-, hb⟩, hbit, rfl⟩ | ⟨r, b, hr, hb, hbit, rfl⟩)
      · exact ⟨0, b, Nat.succ_pos _, by omega, hbit, rfl⟩
      · exact ⟨r + 1, b, Nat.succ_lt_succ hr, hb, hbit, by rw [Nat.add_right_comm, Nat.add_assoc]⟩
    · rintro ⟨r, b, hr, hb, hbit, rfl⟩
      cases r with
      | zero => exact .inl ⟨b, ⟨Nat.zero_le b, by omega⟩, hbit, rfl⟩
      | succ r => exact .inr ⟨r, b, Nat.lt_of_succ_lt_succ hr, hb, hbit, by rw [Nat.add_right_comm, Nat.add_assoc]⟩

theorem nodup_spriteBits (cx py : Nat) (bytes : List Byte) : (spriteBits cx py bytes).Nodup := by
  induction bytes generalizing py with
  | nil => exact List.nodup_nil
  | cons byte rest ih =>
    have hrow : (rowBits cx py byte 0 8).Nodup :=
      (List.Nodup.filter _ List.nodup_range').map fun i j h => by simpa using h
    refine List.nodup_append.mpr ⟨hrow, ih (py + 1), ?_⟩
    intro c hc d hd hcd
    obtain ⟨j, -, -, rfl⟩ := mem_rowBits.mp hc
    obtain ⟨r, b, -, -, -, rfl⟩ := mem_spriteBits.mp hd
    obtain ⟨-, hy⟩ := Prod.mk.inj hcd
    omega

/-- The bits of a sprite of at most 15 rows that reach one pixel are one bit (R344). -/
theorem spriteBits_place_injective {p : Config.EdgePolicy} {cx py : Nat} {bytes : List Byte} (hlen : bytes.length ≤ 15)
    {c d : Nat × Nat} (hc : c ∈ spriteBits cx py bytes) (hd : d ∈ spriteBits cx py bytes) {q : Fin 64 × Fin 32}
    (hcq : place p c.1 c.2 = some q) (hdq : place p d.1 d.2 = some q) : c = d := by
  obtain ⟨r, b, hr, hb, -, rfl⟩ := mem_spriteBits.mp hc
  obtain ⟨r', b', hr', hb', -, rfl⟩ := mem_spriteBits.mp hd
  obtain ⟨hx, hy⟩ := place_injective hcq hdq (by omega) (by omega)
  exact Prod.ext hx hy

/-! ### What plotting turns, and when it collides (R342) -/

/-- `acc` is `fb` with the pixels of `lands` turned and every other kept, and it collided exactly when one of them was lit. -/
structure Turned (fb : Framebuffer) (lands : Fin 64 → Fin 32 → Prop) (acc : Framebuffer × Bool) : Prop where
  kept : ∀ px py, ¬ lands px py → acc.1.lit px py = fb.lit px py
  turned : ∀ px py, lands px py → acc.1.lit px py = !fb.lit px py
  collides : acc.2 = true ↔ ∃ px py, fb.lit px py = true ∧ lands px py

theorem Turned.congr {fb : Framebuffer} {lands lands' : Fin 64 → Fin 32 → Prop} {acc : Framebuffer × Bool}
    (h : Turned fb lands acc) (hiff : ∀ px py, lands px py ↔ lands' px py) : Turned fb lands' acc := by
  obtain rfl : lands = lands' := funext₂ fun px py => propext (hiff px py)
  exact h

theorem plot_of_place_none {p : Config.EdgePolicy} {x y : Nat} (h : place p x y = none) (acc : Framebuffer × Bool) :
    plot p x y acc = acc := by
  rw [plot, h]

theorem plot_of_place_some {p : Config.EdgePolicy} {x y : Nat} {qx : Fin 64} {qy : Fin 32}
    (h : place p x y = some (qx, qy)) (acc : Framebuffer × Bool) :
    plot p x y acc = (acc.1.flip qx qy, acc.2 || acc.1.lit qx qy) := by
  rw [plot, h]

/-- A bit that reaches no pixel turned so far turns its own, if it is placed. -/
theorem Turned.plot {fb : Framebuffer} {lands : Fin 64 → Fin 32 → Prop} {acc : Framebuffer × Bool}
    (h : Turned fb lands acc) {p : Config.EdgePolicy} {x y : Nat}
    (hfresh : ∀ px py, lands px py → place p x y ≠ some (px, py)) :
    Turned fb (fun px py => lands px py ∨ place p x y = some (px, py)) (plot p x y acc) := by
  cases hq : place p x y with
  | none =>
    rw [plot_of_place_none hq]
    exact h.congr (by simp)
  | some q =>
    obtain ⟨qx, qy⟩ := q
    have hkept : acc.1.lit qx qy = fb.lit qx qy := h.kept qx qy fun hl => hfresh qx qy hl hq
    rw [plot_of_place_some hq]
    constructor
    case kept =>
      intro px py hnot
      obtain ⟨hold, hne⟩ := not_or.mp hnot
      have hne' : ¬ (px = qx ∧ py = qy) := fun ⟨ex, ey⟩ => hne (by rw [ex, ey])
      rw [Framebuffer.lit_flip, if_neg hne', h.kept px py hold]
    case turned =>
      intro px py hlands
      rw [Framebuffer.lit_flip]
      split_ifs with heq
      · obtain ⟨rfl, rfl⟩ := heq
        rw [hkept]
      · refine h.turned px py (hlands.resolve_right fun e => heq ?_)
        cases e
        exact ⟨rfl, rfl⟩
    case collides =>
      rw [Bool.or_eq_true, h.collides, hkept]
      constructor
      · rintro (⟨px, py, hlit, hl⟩ | hlit)
        · exact ⟨px, py, hlit, .inl hl⟩
        · exact ⟨qx, qy, hlit, .inr rfl⟩
      · rintro ⟨px, py, hlit, hl | hnew⟩
        · exact .inl ⟨px, py, hlit, hl⟩
        · cases hnew
          exact .inr hlit

/-- Bits that reach distinct pixels turn each of them once. -/
theorem plotAll_turned (p : Config.EdgePolicy) (fb : Framebuffer) {cs : List (Nat × Nat)} (hnodup : cs.Nodup)
    (hinj : ∀ c ∈ cs, ∀ d ∈ cs, ∀ q, place p c.1 c.2 = some q → place p d.1 d.2 = some q → c = d) :
    Turned fb (fun px py => ∃ c ∈ cs, place p c.1 c.2 = some (px, py)) (plotAll p cs (fb, false)) := by
  induction cs using List.reverseRecOn with
  | nil => exact ⟨fun _ _ _ => rfl, by simp, by simp [plotAll]⟩
  | append_singleton cs c ih =>
    obtain ⟨hcs, -, hc⟩ := List.nodup_append.mp hnodup
    have hturned := ih hcs fun a ha b hb => hinj a (List.mem_append_left _ ha) b (List.mem_append_left _ hb)
    rw [plotAll_append]
    refine (hturned.plot (p := p) (x := c.1) (y := c.2) ?_).congr fun px py => ?_
    · rintro px py ⟨d, hd, hdq⟩ hcq
      exact hc d hd c (by simp) (hinj d (by simp [hd]) c (by simp) _ hdq hcq)
    · simp [or_and_right, exists_or]

/-- A sprite of at most 15 rows turns the pixels its 1 bits land on. -/
theorem Framebuffer.draw_turned (p : Config.EdgePolicy) (cx cy : Byte) {bytes : List Byte} (fb : Framebuffer)
    (hlen : bytes.length ≤ 15) : Turned fb (SpriteLights p cx cy bytes) (fb.draw p cx cy bytes) := by
  rw [Framebuffer.draw, drawRows_eq_plotAll]
  refine (plotAll_turned p fb (nodup_spriteBits ..) fun c hc d hd q => spriteBits_place_injective hlen hc hd).congr ?_
  intro px py
  simp only [mem_spriteBits, SpriteLights]
  constructor
  · rintro ⟨_, ⟨r, b, hr, hb, hbit, rfl⟩, hplace⟩
    exact ⟨r, b, hr, hb, hbit, hplace⟩
  · rintro ⟨r, b, hr, hb, hbit, hplace⟩
    exact ⟨_, ⟨r, b, hr, hb, hbit, rfl⟩, hplace⟩

/-! ### The Display's draw (R342 to R344) -/

theorem Turned.lit_iff {fb : Framebuffer} {lands : Fin 64 → Fin 32 → Prop} {acc : Framebuffer × Bool}
    (h : Turned fb lands acc) (px : Fin 64) (py : Fin 32) :
    acc.1.lit px py = true ↔ (fb.lit px py = true ∧ ¬ lands px py) ∨ (fb.lit px py = false ∧ lands px py) := by
  by_cases hl : lands px py
  · simp [h.turned px py hl, hl]
  · simp [h.kept px py hl, hl]

theorem place_clip_eq_some {px py : Nat} {qx : Fin 64} {qy : Fin 32} :
    place .clip px py = some (qx, qy) ↔ qx.val = px ∧ qy.val = py := by
  by_cases h : px < 64 ∧ py < 32
  · obtain ⟨hx, hy⟩ := h
    simp [place_clip_of_lt hx hy, Fin.ext_iff, eq_comm]
  · rw [place_clip_of_not_lt h]
    constructor
    · nofun
    · rintro ⟨rfl, rfl⟩
      exact absurd ⟨qx.isLt, qy.isLt⟩ h

theorem place_clip_eq_none {px py : Nat} : place .clip px py = none ↔ 64 ≤ px ∨ 32 ≤ py := by
  by_cases h : px < 64 ∧ py < 32
  · rw [place_clip_of_lt h.1 h.2]
    constructor
    · nofun
    · omega
  · rw [place_clip_of_not_lt h]
    simp only [true_iff]
    omega

/-- Settles O48: the draw is a `Turned` bitmap, and `place` is given by the two policies. -/
theorem drawTurnsTheSpritesPixels : Obligations.DrawTurnsTheSpritesPixels := by
  unfold Obligations.DrawTurnsTheSpritesPixels
  refine ⟨fun p cx cy bytes fb hlen => ?_, fun _ _ _ _ => place_clip_eq_some, fun _ _ => place_clip_eq_none,
    fun px py => ⟨_, _, rfl, rfl, rfl⟩⟩
  have hturned := Framebuffer.draw_turned p cx cy fb hlen
  exact ⟨hturned.lit_iff, hturned.collides⟩

/-- Settles O49: the second draw turns the same pixels back, and finds lit those that the first one lit. -/
theorem doubleDrawRestoresBitmap : Obligations.DoubleDrawRestoresBitmap := by
  unfold Obligations.DoubleDrawRestoresBitmap
  intro p cx cy bytes fb hlen
  have hfst := Framebuffer.draw_turned p cx cy fb hlen
  have hsnd := Framebuffer.draw_turned p cx cy (fb.draw p cx cy bytes).1 hlen
  refine ⟨Framebuffer.ext_lit fun px py => ?_, hsnd.collides.trans (exists₂_congr fun px py => ?_)⟩
  · by_cases hl : SpriteLights p cx cy bytes px py
    · rw [hsnd.turned px py hl, hfst.turned px py hl, Bool.not_not]
    · rw [hsnd.kept px py hl, hfst.kept px py hl]
  · by_cases hl : SpriteLights p cx cy bytes px py
    · simp [hfst.turned px py hl, hl]
    · simp [hfst.kept px py hl, hl]

end Sys2Proof.Machine

/-! The rules of spec/70_reset_and_hazards.md: loading (R371), the tick of the cycle that reads or writes a timer (R381) and
the parked core (R384). -/

namespace Sys2Proof.Machine

/-! ### Loading (R371) -/

theorem State.loadFont_onlyChanges (s : State) (font : Vector Byte 80) :
    OnlyChanges (bytesFrom 0 80) s (s.loadFont font) := by
  have hframe := s.setMem_writeRange_onlyChanges 0 font.toList
  rwa [Vector.length_toList] at hframe

theorem State.loadFont_mem_wf {s : State} (hs : s.mem.wf) (font : Vector Byte 80) : (s.loadFont font).mem.wf :=
  Memory.writeRange_wf hs (by simp [Config.memSize])

theorem State.read_loadFont {s : State} (hs : s.mem.wf) (font : Vector Byte 80) (k : Fin 80) :
    (s.loadFont font).mem.read k.val = font[k.val] := by
  have hk : k.val < font.toList.length := by simp
  have hread := Memory.read_writeRange_inside hs (a := 0) (by simp [Config.memSize]) hk
  rwa [Nat.zero_add, Vector.getElem_toList] at hread

theorem State.loadProgram_of_fits {s : State} {image : List Byte} (hlen : image.length ≤ Config.maxProgram) :
    s.loadProgram image = .ok (s.setMem (s.mem.writeRange Config.programBase image)) :=
  if_neg (Nat.not_lt_of_le hlen)

theorem State.loadProgram_of_too_long {s : State} {image : List Byte} (hlen : Config.maxProgram < image.length) :
    s.loadProgram image = .error (.tooLong image.length) :=
  if_pos hlen

/-- The largest image ends at the end of memory (R371). -/
theorem programBase_add_le {n : Nat} (hlen : n ≤ Config.maxProgram) : Config.programBase + n ≤ Config.memSize :=
  Nat.add_le_add_left hlen Config.programBase

/-- Settles O17: font and image are disjoint blocks, written over memory that reset leaves zero; no other part is written. -/
theorem bootLoadsFontAndProgram : Obligations.BootLoadsFontAndProgram := by
  unfold Obligations.BootLoadsFontAndProgram
  refine ⟨fun font image hlen => ?_, fun font image => State.loadProgram_of_too_long⟩
  have hwf := State.loadFont_mem_wf (s := State.reset) Memory.wf_nil font
  have hend := programBase_add_le hlen
  have hframe := (State.reset.loadFont_onlyChanges font).trans
    ((State.reset.loadFont font).setMem_writeRange_onlyChanges Config.programBase image)
  refine ⟨_, State.loadProgram_of_fits hlen, fun k => ?font, fun k hk => ?image, fun a hlo ha => ?zero,
    Memory.writeRange_wf hwf hend, fun p hp => hframe p ?rest⟩
  case font =>
    have hbelow : k.val < Config.programBase := Nat.lt_trans k.isLt (by decide)
    exact (Memory.read_writeRange_outside _ (.inl hbelow)).trans (State.read_loadFont Memory.wf_nil font k)
  case image => exact Memory.read_writeRange_inside hwf hend hk
  case zero =>
    refine hframe (.byte a) ?_
    simp only [List.mem_append, byte_mem_bytesFrom, Config.programBase]
    omega
  case rest =>
    intro hmem
    simp only [bytesFrom, List.mem_append, List.mem_map] at hmem
    obtain ⟨_, -, rfl⟩ | ⟨_, -, rfl⟩ := hmem
    · exact hp _ rfl
    · exact hp _ rfl

/-! ### A timer instruction in a cycle that ticks (R381) -/

/-- A cycle that ticks counts down the timers as its instruction left them, and keeps the registers and PC of that state. -/
theorem step_ticks_after_exec {s u : State} {i : Instr} (hrun : s.status = .running) (hstop : s.stopInput = false)
    (hpc : s.pc.toNat + 1 < Config.memSize) (hdec : decodeWord (s.wordAt s.pc.toNat) = .ok i)
    (hexec : exec i s.beginCycle.advance = .next u) (hurun : u.status = .running) (htick : u.tickInput = true) :
    ∃ t, step s = .next t ∧ Ticked u t ∧ t.v = u.v ∧ t.pc = u.pc := by
  obtain ⟨hnext, -⟩ := stepRunsDecodedInstruction s i hrun hstop hpc ((decode_two_bytes_ok_iff _ _ i []).mpr hdec)
  exact ⟨_, hnext u hexec, State.afterDispatch_ticked s.pc hurun htick, u.afterDispatch_v _, u.afterDispatch_pc _⟩

/-- Settles O54: the tick counts down what the write left, and a read has taken DT before it. -/
theorem timerWriteThenTick : Obligations.TimerWriteThenTick := by
  unfold Obligations.TimerWriteThenTick
  intro s x hrun hstop hpc htick _
  refine ⟨fun hdec => ?_, fun hdec => ?_, fun hdec => ?_⟩
  · obtain ⟨t, hstep, hticked, -, hpc'⟩ := step_ticks_after_exec hrun hstop hpc hdec rfl hrun htick
    exact ⟨t, hstep, hticked.delay, hpc'⟩
  · obtain ⟨t, hstep, hticked, -, hpc'⟩ := step_ticks_after_exec hrun hstop hpc hdec rfl hrun htick
    exact ⟨t, hstep, hticked.sound, hpc'⟩
  · obtain ⟨t, hstep, hticked, hv, -⟩ := step_ticks_after_exec hrun hstop hpc hdec rfl hrun htick
    exact ⟨t, hstep, (State.reg_eq_of_v hv x).trans (State.reg_setReg_self ..), hticked.delay⟩

/-! ### The parked core (R384) -/

/-- Being parked is read from the run state, PC and memory alone. -/
theorem Parked.of_same {s t : State} (hs : Parked s) (hstatus : t.status = s.status) (hpc : t.pc = s.pc)
    (hmem : t.mem = s.mem) : Parked t := by
  simpa only [Parked, State.wordAt, hstatus, hpc, hmem] using hs

/-- Right after the fetch, a jump to its own address is back in the state before it. -/
theorem exec_jp_self {s : State} {nnn : BitVec 12} (htarget : addrOperand nnn = s.pc) :
    exec (.jp nnn) s.advance = .next s := by
  rw [exec, execJp, htarget]
  rfl

/-- Settles O55: the jump leaves the state as the cycle began it, so only the cycle's tail changes anything. -/
theorem parkedCoreStaysParked : Obligations.ParkedCoreStaysParked := by
  unfold Obligations.ParkedCoreStaysParked
  intro s hparked hstop hio
  have ⟨hrun, hpc, nnn, hdec, htarget⟩ := hparked
  have hd : dispatch s.beginCycle = .next s.beginCycle :=
    (dispatch_of_decodeWord (s := s.beginCycle) hpc hdec).trans (exec_jp_self (s := s.beginCycle) htarget)
  obtain ⟨hstep, htail, hframe⟩ := step_of_dispatch_self hrun hstop hio hd
  have hparked' := hparked.of_same (hframe .status (by decide)) (hframe .pc (by decide)) (State.afterDispatch_mem ..)
  exact ⟨_, hstep, hparked', htail, hframe⟩

end Sys2Proof.Machine

/-! Runs from a loaded machine (spec/70_reset_and_hazards.md), the writers of I, DT, ST and PC (spec/10_state.md), and the
properties that join two instructions: return after call (R121, R123), load after store (R205, R206). -/

namespace Sys2Proof.Machine

/-! ### The invariant of a run: at reset, after a load, at every state reached -/

theorem State.reset_inv : Inv State.reset where
  memory := Memory.wf_nil
  stackPointer := by decide
  programCounter := by decide
  returnAddresses _ hk := absurd hk (Nat.not_lt_zero _)
  dueTimes := ⟨Nat.le_refl 1, Nat.le_refl 1⟩

theorem Inv.setMem {s : State} {m : Memory} (hs : Inv s) (hm : m.wf) : Inv (s.setMem m) where
  memory := hm
  stackPointer := hs.stackPointer
  programCounter := hs.programCounter
  returnAddresses := hs.returnAddresses
  dueTimes := hs.dueTimes

theorem Inv.loadFont {s : State} (hs : Inv s) (font : Vector Byte 80) : Inv (s.loadFont font) :=
  hs.setMem (State.loadFont_mem_wf hs.memory font)

/-- An image that is accepted fits in memory, so the load keeps the canonical form (R371). -/
theorem Inv.loadProgram {s t : State} {image : List Byte} (hs : Inv s) (h : s.loadProgram image = .ok t) : Inv t := by
  rcases Nat.lt_or_ge Config.maxProgram image.length with hlong | hfits
  · cases (State.loadProgram_of_too_long hlong).symm.trans h
  · cases (State.loadProgram_of_fits hfits).symm.trans h
    exact hs.setMem (Memory.writeRange_wf hs.memory (programBase_add_le hfits))

theorem boot_inv {font : Vector Byte 80} {image : List Byte} {s : State} (h : boot font image = .ok s) : Inv s :=
  (State.reset_inv.loadFont font).loadProgram h

/-- Settles O19: the reset values, and each load writes memory alone, inside its bounds. -/
theorem resetAndBootMeetInvariant : Obligations.ResetAndBootMeetInvariant :=
  ⟨State.reset_inv, fun _ _ _ => boot_inv⟩

/-- Neither the inputs nor the edge policy bear on the invariant, and every step keeps it. -/
theorem Reaches.inv {s₀ s : State} (h₀ : Inv s₀) (h : Reaches s₀ s) : Inv s := by
  induction h with
  | start inputs policy => exact h₀.of_same rfl rfl rfl h₀.programCounter (Nat.le_refl _) (Nat.le_refl _)
  | step _ hstep ih => exact step_keeps_inv ih hstep

/-! ### A running machine steps (R31, R300) -/

/-- A dispatch with SP in its range answers a next state: a fetch or decode that fails is a fault of the spec's own. -/
theorem dispatch_answers_next {s : State} (hsp : s.sp.toNat ≤ 16) : ∃ t, dispatch s = .next t := by
  rcases dispatch_cases s with ⟨-, e⟩ | ⟨-, -, e⟩ | ⟨-, i, -, e⟩
  · exact ⟨_, e⟩
  · exact ⟨_, e⟩
  · rw [e]
    exact everyInstructionAnswersNext.1 i s.advance hsp

theorem step_answers_next {s : State} (hrun : s.status = .running) (hsp : s.sp.toNat ≤ 16) : ∃ t, step s = .next t := by
  cases hstop : s.stopInput with
  | true => exact ⟨_, step_of_stopInput hrun hstop⟩
  | false =>
    obtain ⟨u, hu⟩ := dispatch_answers_next (s := s.beginCycle) hsp
    rw [step_running hrun hstop, runCycle, hu]
    exact ⟨_, rfl⟩

/-- Settles O20: every state reached has the invariant, so its SP is at most 16, and that is all a step needs. -/
theorem runningMachineAlwaysSteps : Obligations.RunningMachineAlwaysSteps := by
  unfold Obligations.RunningMachineAlwaysSteps
  intro font image s₀ s hboot hreach
  have hinv := hreach.inv (boot_inv hboot)
  exact ⟨hinv, fun hrun => step_answers_next hrun hinv.stackPointer⟩

/-! ### I, DT, ST and PC (R26, R27, R36, R37) -/

/-- Settles O26: each of the writers is named, and every other instruction leaves the register as it was, a raise too. -/
theorem specialRegisterWriters : Obligations.SpecialRegisterWriters := by
  unfold Obligations.SpecialRegisterWriters
  intro i s t h
  replace h := exec_next h
  cases i
  case cls | ldB | store | load => rcases h with ⟨-, rfl⟩ | ⟨-, rfl⟩ <;> simp
  case ret => rcases h with ⟨-, rfl⟩ | ⟨_, -, rfl⟩ <;> simp
  case call => rcases h with ⟨-, rfl⟩ | ⟨_, rfl⟩ <;> simp
  case skp | sknp => rcases h with ⟨-, rfl⟩ | ⟨_, rfl⟩ <;> simp
  case ldVxK => rcases h with ⟨_, -, rfl⟩ | ⟨-, rfl⟩ <;> simp
  case drw => rcases h with ⟨-, -, rfl⟩ | ⟨-, _, -, ⟨-, rfl⟩ | ⟨-, rfl⟩⟩ <;> simp
  all_goals
    obtain rfl := h
    simp

/-! ### Return after call (R121, R123) -/

/-- Settles O31: the call leaves its PC in entry k and k + 1 in SP, and a return pops that entry. -/
theorem returnUndoesCall : Obligations.ReturnUndoesCall := by
  unfold Obligations.ReturnUndoesCall
  intro s t u nnn k hsp hcall husp hentry
  cases (exec_call_pushes nnn hsp).symm.trans hcall
  have hpushed : u.stack[k.val] = s.pc := hentry.trans (Vector.getElem_set_self k.isLt)
  replace husp : u.sp = s.sp + 1 := husp
  have hpops : u.sp.toNat = k.val + 1 := by bv_omega
  have hsp' : u.sp - 1 = s.sp := by rw [husp, BitVec.add_sub_cancel]
  exact ⟨_, exec_ret_pops hpops, hpushed, hsp', u.pop_onlyChanges _ _⟩

/-! ### Load after store (R205, R206) -/

/-- Settles O45: the store leaves Vr at I + r and keeps I, and the load reads Vr from there. -/
theorem storeThenLoadRestoresRegisters : Obligations.StoreThenLoadRestoresRegisters := by
  unfold Obligations.StoreThenLoadRestoresRegisters
  intro s t u x hm hlast hstore humem hui
  obtain ⟨-, hstores, -⟩ := registersAreStored
  obtain ⟨-, hloads, -⟩ := registersAreLoaded
  obtain ⟨t', ht', hstored, hframe⟩ := hstores s x hm hlast
  cases ht'.symm.trans hstore
  have hi : u.i = s.i := hui.trans (hframe .index (by simp [bytesFrom]))
  have haddr (k : Nat) : u.dataAddr k = s.dataAddr k := by rw [State.dataAddr, hi, State.dataAddr]
  obtain ⟨w, hw, hloaded, -⟩ := hloads u x (by rwa [haddr])
  refine ⟨w, hw, fun r hr => ?_⟩
  rw [hloaded r hr, humem, haddr, hstored r hr]

/-! ### The spec's example words (R95) -/

/-- Settles O6: the decoder run on each pair of bytes. -/
theorem exampleWordsDecode : Obligations.ExampleWordsDecode := by
  unfold Obligations.ExampleWordsDecode
  decide

end Sys2Proof.Machine
